-- ==== Sys2Proof/Word.lean ====
section
/-! DEFINITION. The word types of the block's ports (10_state.md R25 to R28). A port whose bits the
spec numbers, shifts or masks is a bit vector of the port's width. -/

namespace Sys2Proof

/-- Eight bits: `b`, `r_cmd`, `r_byte`, `r_val`, `tx_cmd` (R25, R26, R27). -/
abbrev Byte := BitVec 8

/-- Sixteen bits: `w`, `r_word`, `tx_wdata`, `t_rdata` (R25 to R28). -/
abbrev Word16 := BitVec 16

/-- Five bits, one per named flag: `fv`, `r_fv` (R11, R80). -/
abbrev FlagVec := BitVec 5

end Sys2Proof
end

