-- ==== Sys2Proof/Config.lean ====
section
/-! DEFINITION. What is fixed for one block and left open by the spec: the OPEN parameters, held in the
block's ROM (00_scope.md R7, 10_state.md R24), and the free values. A free value is a constant without a
body, so nothing can be proved about the value it has (assumptions 4, 5 and 6). -/

namespace Sys2Proof

/-- The part of the block's ROM (R24) whose contents the source leaves open (R7). The constants the source
fixes stand in `Sys2Proof/Machine/Rom.lean`. -/
structure Rom where
  /-- `KIND_AUTOINC`, the code of the auto-increment kind (R71, D6). -/
  kindAutoinc : BitVec 2
  /-- `KIND_SPECIAL`, the code of the special kind (R71, D6). No operation uses it (R170). -/
  kindSpecial : BitVec 2
  /-- Entries 6 to 14 of `PERS_TABLE` (R150, D10). -/
  persOpen : Vector Byte 9
  deriving DecidableEq, Repr

/-! ### Output ports that no rule drives (R29): any value. Indexed by the number of the request. -/

/-- `err` while no request is presented (R250). -/
opaque Config.undrivenErr : Nat → BitVec 3
/-- `r_cmd` of a request that does not drive it. -/
opaque Config.undrivenCmd : Nat → Byte
/-- `r_byte` of a request that does not drive it. -/
opaque Config.undrivenByte : Nat → Byte
/-- `r_fv` of a request that does not drive it. -/
opaque Config.undrivenFv : Nat → FlagVec
/-- `r_ms` of a request that does not drive it. -/
opaque Config.undrivenMs : Nat → BitVec 32
/-- `r_val` of a request that does not drive it. -/
opaque Config.undrivenVal : Nat → Byte
/-- `r_word` of a request that does not drive it. -/
opaque Config.undrivenWord : Nat → Word16
/-- `tx_write` while `tx_valid = 0`. -/
opaque Config.undrivenTxWrite : Nat → Bool
/-- `tx_word` while `tx_valid = 0`. -/
opaque Config.undrivenTxWord : Nat → Bool
/-- `tx_cmd` while `tx_valid = 0`. -/
opaque Config.undrivenTxCmd : Nat → Byte
/-- `tx_wdata` while `tx_valid = 0`. -/
opaque Config.undrivenTxWdata : Nat → Word16

/-! ### The transport's answers (R52, D20): a free draw each. -/

/-- `t_ok` of an answer that `State.responses` does not list. -/
opaque Config.transportOk : Nat → Bool
/-- `t_rdata` of an answer that `State.responses` does not list. -/
opaque Config.transportData : Nat → Word16

end Sys2Proof
end

