-- ==== Sys2Proof/Syntax.lean ====
section
/-! DEFINITION. The syntax of a request: the request ports as the block receives them (10_state.md R25), and
the 36 operations of the opcode table with the operands each one reads (30_encoding.md R73, R74, R76). -/

namespace Sys2Proof

/-- The request ports. Every request presents all of them (R25). -/
structure Request where
  /-- operation select -/
  op : BitVec 6
  /-- raw transaction kind -/
  kind : BitVec 2
  /-- register address -/
  addr : BitVec 5
  /-- flag vector -/
  fv : FlagVec
  /-- raw register byte -/
  b : Byte
  /-- long-wait select -/
  lng : Bool
  /-- requested time in 10 µs units, two's complement -/
  ms : BitVec 32
  /-- requested enumerated value, two's complement -/
  val : BitVec 32
  /-- raw 16-bit count -/
  w : Word16
  deriving DecidableEq, Repr

/-- The operand formats of R76: the set of request ports an operation reads. -/
inductive Format where
  | fc | fb | fbl | ff | fml | fm | fv | fw | fl | fn
  deriving DecidableEq, Repr

/-- One constructor per row of the opcode table. An operand is what the port spells (R77): `ms` and `val` are
integers, the rest are bits. `WellFormed` says which integers the 32-bit ports can carry. -/
inductive Instr where
  -- the four units (R73)
  /-- CMDENC, op 0x00 (R100) -/
  | cmdenc (kind : BitVec 2) (addr : BitVec 5)
  /-- ENDEC, op 0x01 (R110) -/
  | endec (b : Byte)
  /-- ENENC, op 0x02 (R111) -/
  | enenc (fv : FlagVec)
  /-- CFGDEC, op 0x03 (R113) -/
  | cfgdec (b : Byte)
  /-- CFGENC, op 0x04 (R114) -/
  | cfgenc (fv : FlagVec)
  /-- STDEC, op 0x05 (R116) -/
  | stdec (b : Byte)
  /-- T2MS, op 0x08 (R131) -/
  | t2ms (b : Byte) (lng : Bool)
  /-- MS2T, op 0x09 (R132) -/
  | ms2t (ms : Int) (lng : Bool)
  /-- PERSDEC, op 0x0C (R152) -/
  | persdec (b : Byte)
  /-- PERSENC, op 0x0D (R153) -/
  | persenc (val : Int)
  /-- GAINDEC, op 0x0E (R154) -/
  | gaindec (b : Byte)
  /-- GAINENC, op 0x0F (R155) -/
  | gainenc (val : Int)
  -- the register-access front end (R74)
  /-- RDEN, op 0x20 (R172) -/
  | rden
  /-- WREN, op 0x21 (R173) -/
  | wren (fv : FlagVec)
  /-- RDATIME, op 0x22 (R174) -/
  | rdatime
  /-- WRATIME, op 0x23 (R175) -/
  | wratime (ms : Int)
  /-- RDWTIME, op 0x24 (R176) -/
  | rdwtime (lng : Bool)
  /-- WRWTIME, op 0x25 (R177) -/
  | wrwtime (ms : Int) (lng : Bool)
  /-- RDAILT, op 0x26 (R178) -/
  | rdailt
  /-- WRAILT, op 0x27 (R179) -/
  | wrailt (w : Word16)
  /-- RDAIHT, op 0x28 (R180) -/
  | rdaiht
  /-- WRAIHT, op 0x29 (R181) -/
  | wraiht (w : Word16)
  /-- RDPERS, op 0x2A (R182) -/
  | rdpers
  /-- WRPERS, op 0x2B (R183) -/
  | wrpers (val : Int)
  /-- RDCFG, op 0x2C (R184) -/
  | rdcfg
  /-- WRCFG, op 0x2D (R185) -/
  | wrcfg (fv : FlagVec)
  /-- RDGAIN, op 0x2E (R186) -/
  | rdgain
  /-- WRGAIN, op 0x2F (R187) -/
  | wrgain (val : Int)
  /-- RDID, op 0x30 (R188) -/
  | rdid
  /-- WRID, op 0x31 (R189) -/
  | wrid
  /-- RDSTATUS, op 0x32 (R190) -/
  | rdstatus
  /-- WRSTATUS, op 0x33 (R191) -/
  | wrstatus
  /-- RDC0, op 0x34 (R192) -/
  | rdc0
  /-- WRC0, op 0x35 (R193) -/
  | wrc0
  /-- RDC1, op 0x36 (R194) -/
  | rdc1
  /-- WRC1, op 0x37 (R195) -/
  | wrc1
  deriving DecidableEq, Repr

end Sys2Proof
end

