-- ==== Sys2Proof/WellFormed.lean ====
section
/-! DEFINITION. Which instructions a request can carry. Every operand but `ms` and `val` has exactly its port's
width by its type. Those two are integers, and the port carries 32-bit two's complement (30_encoding.md R77;
93_implementation_defined.md I18: a value beyond the port is refused at the host boundary). -/

namespace Sys2Proof

/-- The integers a 32-bit two's-complement port can carry (R9). -/
def fitsPort (v : Int) : Bool := decide (-2147483648 ≤ v) && decide (v ≤ 2147483647)

/-- An instruction whose operands its ports can carry. -/
def Instr.wellFormed : Instr → Bool
  | .ms2t ms _ => fitsPort ms
  | .wratime ms => fitsPort ms
  | .wrwtime ms _ => fitsPort ms
  | .persenc val => fitsPort val
  | .gainenc val => fitsPort val
  | .wrpers val => fitsPort val
  | .wrgain val => fitsPort val
  | .cmdenc _ _ | .endec _ | .enenc _ | .cfgdec _ | .cfgenc _ | .stdec _ | .t2ms _ _ | .persdec _ | .gaindec _
  | .rden | .wren _ | .rdatime | .rdwtime _ | .rdailt | .wrailt _ | .rdaiht | .wraiht _ | .rdpers | .rdcfg
  | .wrcfg _ | .rdgain | .rdid | .wrid | .rdstatus | .wrstatus | .rdc0 | .wrc0 | .rdc1 | .wrc1 => true

end Sys2Proof
end

