-- ==== Sys2Proof/Machine/Operands.lean ====
section
/-! DEFINITION. Operand forms: how an operand port is read and written (30_encoding.md R77), and which ports each
format reads (R76). -/

namespace Sys2Proof

/-- A 32-bit port read as a two's-complement integer: `ms` and `val` (R77). -/
def readSigned (p : BitVec 32) : Int := p.toInt

/-- The port value that spells the integer `v`, for `v` in the port's range (R9). -/
def writeSigned (v : Int) : BitVec 32 := BitVec.ofInt 32 v

/-- The format of each operation (R76). -/
def Instr.format : Instr → Format
  | .cmdenc _ _ => .fc
  | .endec _ | .cfgdec _ | .stdec _ | .persdec _ | .gaindec _ => .fb
  | .t2ms _ _ => .fbl
  | .enenc _ | .cfgenc _ | .wren _ | .wrcfg _ => .ff
  | .ms2t _ _ | .wrwtime _ _ => .fml
  | .wratime _ => .fm
  | .persenc _ | .gainenc _ | .wrpers _ | .wrgain _ => .fv
  | .wrailt _ | .wraiht _ => .fw
  | .rdwtime _ => .fl
  | .rden | .rdatime | .rdailt | .rdaiht | .rdpers | .rdcfg | .rdgain | .rdid | .wrid | .rdstatus | .wrstatus
  | .rdc0 | .wrc0 | .rdc1 | .wrc1 => .fn

/-- Two requests that agree on every operand port the format reads (R76). -/
def Format.agree (f : Format) (r r' : Request) : Prop :=
  match f with
  | .fc => r.kind = r'.kind ∧ r.addr = r'.addr
  | .fb => r.b = r'.b
  | .fbl => r.b = r'.b ∧ r.lng = r'.lng
  | .ff => r.fv = r'.fv
  | .fml => r.ms = r'.ms ∧ r.lng = r'.lng
  | .fm => r.ms = r'.ms
  | .fv => r.val = r'.val
  | .fw => r.w = r'.w
  | .fl => r.lng = r'.lng
  | .fn => True

end Sys2Proof
end

