-- ==== Sys2Proof/Decode.lean ====
section
/-! DEFINITION. Decoding a request (30_encoding.md R72 to R77, R81): `op` alone selects the operation, and the
operation's format names the ports read. Total: a reserved code is rejected by name. The encoder stands after it,
written from the same tables, and after that the model's own numbering of a request's bits (assumption 1). -/

namespace Sys2Proof

/-- Why a request does not decode. -/
inductive DecodeError where
  /-- `op` is one of the 28 reserved codes (R75). The block answers IllegalOperation (R226). -/
  | illegalOperation (op : BitVec 6)
  deriving DecidableEq, Repr

/-- The operation a request selects, with its operands (R73, R74, R76). -/
def decode (r : Request) : Except DecodeError Instr :=
  match r.op with
  | 0x00#6 => .ok (.cmdenc r.kind r.addr)
  | 0x01#6 => .ok (.endec r.b)
  | 0x02#6 => .ok (.enenc r.fv)
  | 0x03#6 => .ok (.cfgdec r.b)
  | 0x04#6 => .ok (.cfgenc r.fv)
  | 0x05#6 => .ok (.stdec r.b)
  | 0x08#6 => .ok (.t2ms r.b r.lng)
  | 0x09#6 => .ok (.ms2t (readSigned r.ms) r.lng)
  | 0x0C#6 => .ok (.persdec r.b)
  | 0x0D#6 => .ok (.persenc (readSigned r.val))
  | 0x0E#6 => .ok (.gaindec r.b)
  | 0x0F#6 => .ok (.gainenc (readSigned r.val))
  | 0x20#6 => .ok .rden
  | 0x21#6 => .ok (.wren r.fv)
  | 0x22#6 => .ok .rdatime
  | 0x23#6 => .ok (.wratime (readSigned r.ms))
  | 0x24#6 => .ok (.rdwtime r.lng)
  | 0x25#6 => .ok (.wrwtime (readSigned r.ms) r.lng)
  | 0x26#6 => .ok .rdailt
  | 0x27#6 => .ok (.wrailt r.w)
  | 0x28#6 => .ok .rdaiht
  | 0x29#6 => .ok (.wraiht r.w)
  | 0x2A#6 => .ok .rdpers
  | 0x2B#6 => .ok (.wrpers (readSigned r.val))
  | 0x2C#6 => .ok .rdcfg
  | 0x2D#6 => .ok (.wrcfg r.fv)
  | 0x2E#6 => .ok .rdgain
  | 0x2F#6 => .ok (.wrgain (readSigned r.val))
  | 0x30#6 => .ok .rdid
  | 0x31#6 => .ok .wrid
  | 0x32#6 => .ok .rdstatus
  | 0x33#6 => .ok .wrstatus
  | 0x34#6 => .ok .rdc0
  | 0x35#6 => .ok .wrc0
  | 0x36#6 => .ok .rdc1
  | 0x37#6 => .ok .wrc1
  | op => .error (.illegalOperation op)

/-- The request that selects `i`, its other ports as in `base` (R25: an operation ignores the ports it does not
name). -/
def encodeOver (base : Request) : Instr → Request
  | .cmdenc kind addr => { base with op := 0x00, kind := kind, addr := addr }
  | .endec b => { base with op := 0x01, b := b }
  | .enenc fv => { base with op := 0x02, fv := fv }
  | .cfgdec b => { base with op := 0x03, b := b }
  | .cfgenc fv => { base with op := 0x04, fv := fv }
  | .stdec b => { base with op := 0x05, b := b }
  | .t2ms b lng => { base with op := 0x08, b := b, lng := lng }
  | .ms2t ms lng => { base with op := 0x09, ms := writeSigned ms, lng := lng }
  | .persdec b => { base with op := 0x0C, b := b }
  | .persenc val => { base with op := 0x0D, val := writeSigned val }
  | .gaindec b => { base with op := 0x0E, b := b }
  | .gainenc val => { base with op := 0x0F, val := writeSigned val }
  | .rden => { base with op := 0x20 }
  | .wren fv => { base with op := 0x21, fv := fv }
  | .rdatime => { base with op := 0x22 }
  | .wratime ms => { base with op := 0x23, ms := writeSigned ms }
  | .rdwtime lng => { base with op := 0x24, lng := lng }
  | .wrwtime ms lng => { base with op := 0x25, ms := writeSigned ms, lng := lng }
  | .rdailt => { base with op := 0x26 }
  | .wrailt w => { base with op := 0x27, w := w }
  | .rdaiht => { base with op := 0x28 }
  | .wraiht w => { base with op := 0x29, w := w }
  | .rdpers => { base with op := 0x2A }
  | .wrpers val => { base with op := 0x2B, val := writeSigned val }
  | .rdcfg => { base with op := 0x2C }
  | .wrcfg fv => { base with op := 0x2D, fv := fv }
  | .rdgain => { base with op := 0x2E }
  | .wrgain val => { base with op := 0x2F, val := writeSigned val }
  | .rdid => { base with op := 0x30 }
  | .wrid => { base with op := 0x31 }
  | .rdstatus => { base with op := 0x32 }
  | .wrstatus => { base with op := 0x33 }
  | .rdc0 => { base with op := 0x34 }
  | .wrc0 => { base with op := 0x35 }
  | .rdc1 => { base with op := 0x36 }
  | .wrc1 => { base with op := 0x37 }

/-- The request whose ports are all 0. -/
def Request.zero : Request :=
  { op := 0, kind := 0, addr := 0, fv := 0, b := 0, lng := false, ms := 0, val := 0, w := 0 }

/-- The request that selects `i`, every port it does not read at 0. -/
def encode (i : Instr) : Request := encodeOver Request.zero i

/-! ### A request as one number

The ports in the order of R25, `op` least significant, as the opcode table numbers its bits. The spec lays a
request out on ports, not in a word: this numbering is the model's own (assumption 1). -/

/-- The 107 bits of a request: `op` 5:0, `kind` 7:6, `addr` 12:8, `fv` 17:13, `b` 25:18, `lng` 26, `ms` 58:27,
`val` 90:59, `w` 106:91. -/
def Request.toBits (r : Request) : BitVec 107 :=
  r.w ++ (r.val ++ (r.ms ++ (BitVec.ofBool r.lng ++ (r.b ++ (r.fv ++ (r.addr ++ (r.kind ++ r.op)))))))

/-- The request whose bits are `w`. -/
def Request.ofBits (w : BitVec 107) : Request :=
  { op := w.extractLsb' 0 6, kind := w.extractLsb' 6 2, addr := w.extractLsb' 8 5, fv := w.extractLsb' 13 5,
    b := w.extractLsb' 18 8, lng := w.getLsbD 26, ms := w.extractLsb' 27 32, val := w.extractLsb' 59 32,
    w := w.extractLsb' 91 16 }

/-- The request whose first `nbits` bits are those of `w`, the rest 0. -/
def Request.ofTableWord (nbits w : Nat) : Request := Request.ofBits (BitVec.ofNat 107 (w % 2 ^ nbits))

/-- The instruction the decoder reads from the bits `w`, numbered as the opcode table numbers them. -/
def decodeTableWord (nbits w : Nat) : Option Instr :=
  match decode (Request.ofTableWord nbits w) with
  | .ok i => some i
  | .error _ => none

end Sys2Proof
end

