-- ==== Sys2Proof/Machine/Rom.lean ====
section
/-! DEFINITION. The block's read-only constants (10_state.md R24): the register address map (R30), the timing
constants (R130), the two tables (43_enum_tables.md R150, R151), the kind codes (30_encoding.md R71) and the
contents of the open part at reset (00_scope.md R7). -/

namespace Sys2Proof.Machine

/-- The twelve device registers the block reaches (R30). They live in the sensor, not in the block. -/
inductive Reg where
  | enable | atime | wtime | ailt | aiht | pers | config | control | id | status | c0data | c1data
  deriving DecidableEq, Repr

/-- The register's address (R30): looked up, never computed (R24). -/
def Reg.address : Reg → BitVec 5
  | .enable => 0x00
  | .atime => 0x01
  | .wtime => 0x03
  | .ailt => 0x04
  | .aiht => 0x06
  | .pers => 0x0C
  | .config => 0x0D
  | .control => 0x0F
  | .id => 0x12
  | .status => 0x13
  | .c0data => 0x14
  | .c1data => 0x16

/-- Whether the register is 16 bits wide (R30, R53). -/
def Reg.isWord : Reg → Bool
  | .ailt | .aiht | .c0data | .c1data => true
  | .enable | .atime | .wtime | .pers | .config | .control | .id | .status => false

/-- `KIND_REPEATED`, the code of the repeated-byte kind (R71). -/
def kindRepeated : BitVec 2 := 0b00

/-- The kind of every transaction with the register: repeated-byte for a byte register, auto-increment for a word
register (R30, R170). -/
def Reg.kind (rom : Rom) (reg : Reg) : BitVec 2 :=
  if reg.isWord then rom.kindAutoinc else kindRepeated

/-- `T_UNIT`: one timing step in units of 10 µs (R130). -/
def tUnit : Nat := 273

/-- `LONG_MULT`: the long-wait multiplier (R130). -/
def longMult : Nat := 12

/-- `PERS_TABLE` (R150): indices 0 to 5 and 15 are fixed, 6 to 14 open. -/
def persTable (rom : Rom) : List Byte :=
  [0, 1, 2, 3, 5, 10] ++ rom.persOpen.toList ++ [60]

/-- `GAIN_TABLE` (R151). -/
def gainTable : List Byte := [1, 8, 16, 120]

/-- PRESUMED (assumption 7): the spec's defaults for the open part of the ROM (R7, R71, R150), marked there as from
general knowledge. -/
def Rom.defaults : Rom where
  kindAutoinc := 0b01
  kindSpecial := 0b11
  persOpen := #v[15, 20, 25, 30, 35, 40, 45, 50, 55]

end Sys2Proof.Machine
end

