-- ==== Sys2Proof/Machine/Flags.lean ====
section
/-! DEFINITION. The bit-field registers (41_bitfield.md): the named flags of ENABLE, CONFIG and STATUS, their masks
(10_state.md R31, R36, R39), their places in a flag vector (30_encoding.md R80), and the two transforms between a
register byte and a flag vector. The block has no condition codes (R22): these flags are data. -/

namespace Sys2Proof.Machine

/-- The named flags (R31, R36, R39). -/
inductive Flag where
  | sai | aien | wen | aen | pon
  | agl | wlong
  | aint | avalid
  deriving DecidableEq, Repr

/-- The flag's mask in its register (R31, R36, R39). -/
def Flag.mask : Flag → Byte
  | .sai => 0x40
  | .aien => 0x10
  | .wen => 0x08
  | .aen => 0x02
  | .pon => 0x01
  | .agl => 0x04
  | .wlong => 0x02
  | .aint => 0x10
  | .avalid => 0x01

/-- The flag's bit in a flag vector (R80). -/
def Flag.place : Flag → Nat
  | .sai => 4
  | .aien => 3
  | .wen => 2
  | .aen => 1
  | .pon => 0
  | .agl => 1
  | .wlong => 0
  | .aint => 1
  | .avalid => 0

/-- The flags of ENABLE (R31). -/
def enableFlags : List Flag := [.sai, .aien, .wen, .aen, .pon]

/-- The flags of CONFIG (R36). -/
def configFlags : List Flag := [.agl, .wlong]

/-- The flags of STATUS (R39). -/
def statusFlags : List Flag := [.aint, .avalid]

/-- Encode: the masks of the flags that are 1, ORed together (41_bitfield.md, the general contract). -/
def packFlags (flags : List Flag) (fv : FlagVec) : Byte :=
  flags.foldr (fun f v => v ||| (if fv.getLsbD f.place then f.mask else 0)) 0

/-- Decode: each known mask bit tested on its own, unknown bits dropped; a place without a flag is 0 (D9). -/
def unpackFlags (flags : List Flag) (b : Byte) : FlagVec :=
  flags.foldr (fun f v => v ||| (if b &&& f.mask ≠ 0 then BitVec.twoPow 5 f.place else 0)) 0

/-- `endec` (R110) -/
def endec (b : Byte) : FlagVec := unpackFlags enableFlags b

/-- `enenc` (R111) -/
def enenc (fv : FlagVec) : Byte := packFlags enableFlags fv

/-- `cfgdec` (R113) -/
def cfgdec (b : Byte) : FlagVec := unpackFlags configFlags b

/-- `cfgenc` (R114) -/
def cfgenc (fv : FlagVec) : Byte := packFlags configFlags fv

/-- `stdec` (R116). There is no STATUS encode (R117). -/
def stdec (b : Byte) : FlagVec := unpackFlags statusFlags b

end Sys2Proof.Machine
end

