-- ==== Sys2Proof/Machine/State.lean ====
section
/-! DEFINITION. The state. The block itself keeps nothing from one request to the next (10_state.md R20, R22, R23).
What a run has, and so what `State` holds, is: the block's ROM (R24); what its output ports show (R26, R27); and the
two agents at its ports, the host with the requests it presents (R21, R25) and the transport with the answers it gives
(R28, R236) and the transactions it was asked for. -/

namespace Sys2Proof.Machine

/-- The five errors of 60_exceptions.md R220. -/
inductive Err where
  /-- err = 1 (R222) -/
  | rangeError
  /-- err = 2 (R223) -/
  | unsupportedValueError
  /-- err = 3 (R224) -/
  | readOnlyViolation
  /-- err = 4 (R225) -/
  | transportError
  /-- err = 5 (R226) -/
  | illegalOperation
  deriving DecidableEq, Repr

/-- A transaction descriptor, as the block puts it on its `tx_` ports (R27). -/
structure Txn where
  /-- 1 = write, 0 = read -/
  write : Bool
  /-- 1 = 16-bit word, 0 = 8-bit byte -/
  word : Bool
  /-- the command byte -/
  cmd : Byte
  /-- the data to write -/
  wdata : Word16
  deriving DecidableEq, Repr

/-- What the transport drives on its response ports for one transaction (R28). -/
structure Response where
  /-- `t_ok`: 0 = the transport raised TransportError -/
  tOk : Bool
  /-- `t_rdata`: the value read -/
  tRdata : Word16
  deriving DecidableEq, Repr

/-- What the host can do at the block's ports. -/
inductive HostMove where
  /-- Present one request (R21, R237). -/
  | present (r : Request)
  /-- Present two requests that overlap. The host may not (R237), and the block gives it no meaning (R240). -/
  | overlap (r r' : Request)
  /-- Assert the reset input, if there is one (R250, D21). -/
  | reset
  deriving DecidableEq, Repr

/-- The results an operation drives, `none` for a port its rule does not drive (R26, R29). An operand of `succeed`,
not a part of the state. -/
structure Results where
  cmd : Option Byte := none
  byte : Option Byte := none
  fv : Option FlagVec := none
  ms : Option (BitVec 32) := none
  val : Option Byte := none
  word : Option Word16 := none
  deriving DecidableEq, Repr

/-- Why the machine stops with a fault: nothing does. The block has no trap mechanism (R229), and every error of R220
is an outcome on `err` after which the machine goes on (R221), so no rule of the spec stops it. Nobody raises a fault. -/
inductive Fault where
  deriving DecidableEq, Repr

/-- Why a step has no meaning. -/
inductive Refusal where
  /-- `exec` on an instruction that has no meaning yet: none at present. Safe: nothing can be proved to run. -/
  | notModelled (mnemonic : String)
  /-- `step`, when the host presents overlapping requests, which R240 says is refused. Safe for claims about the next
  state, of which there is none; a system in which two hosts share the transport is outside every claim (D26). -/
  | overlappingRequests
  deriving DecidableEq, Repr

structure State where
  /-- The host's moves still to come, the next first (R21). Each carries its request ports (R25). -/
  host : List HostMove
  /-- The transport's answers still to come, the next first (R28). Past its end each answer is a free draw (R52). -/
  responses : List Response
  /-- The open part of the block's ROM (R24). -/
  rom : Rom
  /-- `err` (R26, R220) -/
  err : BitVec 3
  /-- `r_cmd` (R26) -/
  rCmd : Byte
  /-- `r_byte` (R26) -/
  rByte : Byte
  /-- `r_fv` (R26) -/
  rFv : FlagVec
  /-- `r_ms` (R26) -/
  rMs : BitVec 32
  /-- `r_val` (R26) -/
  rVal : Byte
  /-- `r_word` (R26) -/
  rWord : Word16
  /-- `tx_valid` (R27) -/
  txValid : Bool
  /-- `tx_write` (R27) -/
  txWrite : Bool
  /-- `tx_word` (R27) -/
  txWord : Bool
  /-- `tx_cmd` (R27) -/
  txCmd : Byte
  /-- `tx_wdata` (R27) -/
  txWdata : Word16
  /-- The transactions the transport was asked for, oldest first (R57, R236; assumption 11). -/
  issued : List Txn
  /-- The model's own: how many requests have drawn free values (assumption 4). -/
  draws : Nat
  deriving DecidableEq, Repr

/-- The machine right after reset (R250): the ROM holds its constants, no request has been presented, so `err` and the
result ports are undriven and `tx_valid = 0`. -/
def State.reset : State where
  host := []
  responses := []
  rom := Rom.defaults
  err := Config.undrivenErr 0
  rCmd := Config.undrivenCmd 0
  rByte := Config.undrivenByte 0
  rFv := Config.undrivenFv 0
  rMs := Config.undrivenMs 0
  rVal := Config.undrivenVal 0
  rWord := Config.undrivenWord 0
  txValid := false
  txWrite := Config.undrivenTxWrite 0
  txWord := Config.undrivenTxWord 0
  txCmd := Config.undrivenTxCmd 0
  txWdata := Config.undrivenTxWdata 0
  issued := []
  draws := 1

end Sys2Proof.Machine
end

