-- ==== Sys2Proof/Machine/Units.lean ====
section
/-! DEFINITION. The pure transforms of the command codec (40_command_codec.md), the timing converter (42_timing.md) and
the enumeration tables (43_enum_tables.md). The front end uses the same functions (44_register_ops.md R170). -/

namespace Sys2Proof.Machine

/-- The command byte `1 kk aaaaa` (R70, R100). -/
def commandByte (kind : BitVec 2) (addr : BitVec 5) : Byte :=
  0x80 ||| (kind.setWidth 8 <<< 5) ||| addr.setWidth 8

/-- The command byte of every transaction with a register, computed afresh each time (R78, R102). -/
def regCommand (rom : Rom) (reg : Reg) : Byte := commandByte (reg.kind rom) reg.address

/-- `u(lng)`: one step of the timing converter in 10 µs units (R130). -/
def stepUnits (lng : Bool) : Nat := tUnit * (if lng then longMult else 1)

/-- `t2ms`: the time a register byte encodes (R131). -/
def t2ms (b : Byte) (lng : Bool) : BitVec 32 := BitVec.ofNat 32 ((256 - b.toNat) * stepUnits lng)

/-- `ms2t`: the byte that encodes a requested time and the time it achieves, `none` for RangeError (R132). The division
is by a positive number, where Lean's rounds toward −∞ (R9). -/
def ms2t (ms : Int) (lng : Bool) : Option (Byte × BitVec 32) :=
  let bi : Int := 256 - ms / (stepUnits lng : Int)
  if bi < 0 ∨ 255 < bi then none
  else some (BitVec.ofInt 8 bi, BitVec.ofInt 32 ((256 - bi) * (stepUnits lng : Int)))

/-- Index lookup in an enumeration table. Every caller masks the index to the table's size. -/
def tableDecode (table : List Byte) (index : Nat) : Byte := table.getD index 0

/-- Exact-match search: the raw field of the value, `none` for UnsupportedValueError. The first match, where two entries
are equal (assumption 10; R156 says the entries are distinct). -/
def tableEncode (table : List Byte) (v : Int) : Option Byte :=
  (table.findIdx? (fun e => decide ((e.toNat : Int) = v))).map (BitVec.ofNat 8)

/-- `persdec`: bits 7:4 are ignored (R152). -/
def persdec (rom : Rom) (b : Byte) : Byte := tableDecode (persTable rom) (b &&& 0x0F).toNat

/-- `persenc` (R153) -/
def persenc (rom : Rom) (v : Int) : Option Byte := tableEncode (persTable rom) v

/-- `gaindec`: bits 7:2 are ignored (R154). -/
def gaindec (b : Byte) : Byte := tableDecode gainTable (b &&& 0x03).toNat

/-- `gainenc` (R155) -/
def gainenc (v : Int) : Option Byte := tableEncode gainTable v

end Sys2Proof.Machine
end

