-- ==== Sys2Proof/Machine/Ops.lean ====
section
/-! DEFINITION. The shared operations every meaning is written over: presenting a request, ending it with success or with
an error (60_exceptions.md R221), and the four calls of the transport (R236). -/

namespace Sys2Proof.Machine

/-! ### The host's side -/

/-- The host's next move, with the state once it is made; `none` if there is none. Requests come on ports, so the block
fetches nothing (R51): this is the host presenting its next request (R21). -/
def nextMove (s : State) : Option (HostMove × State) :=
  match s.host with
  | [] => none
  | m :: rest => some (m, { s with host := rest })

/-- The outputs of the last request are gone: no port is driven (R22, R29) and no transaction is requested (R27). Every
request begins so. -/
def withdraw (s : State) : State :=
  { s with
    err := Config.undrivenErr s.draws
    rCmd := Config.undrivenCmd s.draws
    rByte := Config.undrivenByte s.draws
    rFv := Config.undrivenFv s.draws
    rMs := Config.undrivenMs s.draws
    rVal := Config.undrivenVal s.draws
    rWord := Config.undrivenWord s.draws
    txValid := false
    txWrite := Config.undrivenTxWrite s.draws
    txWord := Config.undrivenTxWord s.draws
    txCmd := Config.undrivenTxCmd s.draws
    txWdata := Config.undrivenTxWdata s.draws
    draws := s.draws + 1 }

/-! ### How a request ends (R221) -/

/-- The code of an error on `err` (R220). -/
def Err.code : Err → BitVec 3
  | .rangeError => 1
  | .unsupportedValueError => 2
  | .readOnlyViolation => 3
  | .transportError => 4
  | .illegalOperation => 5

/-- `raise`: the request ends with the error on `err`, and no other result port is driven (R10, R29, R221). This is all
of the block's exception entry: it saves nothing and switches nothing (R229), and nothing returns from it (R230). -/
def raise (e : Err) (s : State) : State := { s with err := e.code }

/-- The request ends with `err = 0` and drives the results its rule names (R221). -/
def succeed (r : Results) (s : State) : State :=
  { s with
    err := 0
    rCmd := r.cmd.getD s.rCmd
    rByte := r.byte.getD s.rByte
    rFv := r.fv.getD s.rFv
    rMs := r.ms.getD s.rMs
    rVal := r.val.getD s.rVal
    rWord := r.word.getD s.rWord }

/-- A request that computes only: it succeeds with its results. -/
def compute (r : Results) (s : State) : State := succeed r (withdraw s)

/-- A request that ends in an error before any transaction (R170 step 1, R228). -/
def reject (e : Err) (s : State) : State := raise e (withdraw s)

/-- A request that does not decode raises IllegalOperation (R226). -/
def rejectRequest (e : DecodeError) (s : State) : State :=
  match e with
  | .illegalOperation _ => reject .illegalOperation s

/-! ### The transport's side (R236) -/

/-- The transport's answer to the next transaction: what it is known to give, else a free draw (R52, D20). -/
def nextResponse (s : State) : Response :=
  match s.responses with
  | a :: _ => a
  | [] => { tOk := Config.transportOk s.draws, tRdata := Config.transportData s.draws }

/-- Put a transaction on the `tx_` ports (R27) and hand it to the transport, which answers it once. -/
def issue (x : Txn) (s : State) : State :=
  { s with
    txValid := true
    txWrite := x.write
    txWord := x.word
    txCmd := x.cmd
    txWdata := x.wdata
    issued := s.issued ++ [x]
    responses := s.responses.tail }

/-- Steps 3 and 4 of R170: issue the one transaction, then end the request with the results, given the value read, or
with TransportError if the transport fails (R171). -/
def transact (x : Txn) (results : Word16 → Results) (s : State) : State :=
  let asked := issue x (withdraw s)
  let answer := nextResponse s
  if answer.tOk then succeed (results answer.tRdata) asked else raise .transportError asked

/-- `MemRead(cmd, 1)`: `readByte` at the register. `t_rdata[15:8]` is ignored and `tx_wdata` is 0 (R28, R29). -/
def readByte (reg : Reg) (results : Byte → Results) (s : State) : State :=
  transact { write := false, word := false, cmd := regCommand s.rom reg, wdata := 0 }
    (fun v => results (v.setWidth 8)) s

/-- `MemRead(cmd, 2)`: `readWord` at the register. The value passes unchanged (R54). -/
def readWord (reg : Reg) (results : Word16 → Results) (s : State) : State :=
  transact { write := false, word := true, cmd := regCommand s.rom reg, wdata := 0 } results s

/-- `MemWrite(cmd, 1, v)`: `writeByte` at the register. `tx_wdata[15:8]` is 0 (R29). -/
def writeByte (reg : Reg) (v : Byte) (results : Results) (s : State) : State :=
  transact { write := true, word := false, cmd := regCommand s.rom reg, wdata := v.setWidth 16 }
    (fun _ => results) s

/-- `MemWrite(cmd, 2, v)`: `writeWord` at the register. The value passes unchanged (R54). -/
def writeWord (reg : Reg) (v : Word16) (results : Results) (s : State) : State :=
  transact { write := true, word := true, cmd := regCommand s.rom reg, wdata := v } (fun _ => results) s

/-- Write a requested time to a timing register: convert, then write, driving the stored byte and the achieved time;
RangeError before any transaction (R175, R177, R222). -/
def writeTime (reg : Reg) (ms : Int) (lng : Bool) (s : State) : State :=
  match ms2t ms lng with
  | some (b, achieved) => writeByte reg b { byte := some b, ms := some achieved } s
  | none => reject .rangeError s

/-- Write an enumerated value's raw field; UnsupportedValueError before any transaction (R183, R187, R223). -/
def writeField (reg : Reg) (field : Option Byte) (s : State) : State :=
  match field with
  | some i => writeByte reg i {} s
  | none => reject .unsupportedValueError s

/-- Drive an enumerated value's raw field on `r_byte`; UnsupportedValueError if there is none (R153, R155). -/
def computeField (field : Option Byte) (s : State) : State :=
  match field with
  | some i => compute { byte := some i } s
  | none => reject .unsupportedValueError s

end Sys2Proof.Machine
end

