-- ==== Sys2Proof/Machine/BitField.lean ====
section
/-! DEFINITION. The bit-field operations (41_bitfield.md). -/

namespace Sys2Proof.Machine

/-- ENDEC (R110) -/
def execEndec (b : Byte) (s : State) : Host.Outcome State Fault Refusal :=
  .next (compute { fv := some (endec b) } s)

/-- ENENC (R111) -/
def execEnenc (fv : FlagVec) (s : State) : Host.Outcome State Fault Refusal :=
  .next (compute { byte := some (enenc fv) } s)

/-- CFGDEC (R113) -/
def execCfgdec (b : Byte) (s : State) : Host.Outcome State Fault Refusal :=
  .next (compute { fv := some (cfgdec b) } s)

/-- CFGENC (R114) -/
def execCfgenc (fv : FlagVec) (s : State) : Host.Outcome State Fault Refusal :=
  .next (compute { byte := some (cfgenc fv) } s)

/-- STDEC (R116) -/
def execStdec (b : Byte) (s : State) : Host.Outcome State Fault Refusal :=
  .next (compute { fv := some (stdec b) } s)

end Sys2Proof.Machine
end

