-- ==== Sys2Proof/Machine/CommandCodec.lean ====
section
/-! DEFINITION. The command codec's operation (40_command_codec.md). -/

namespace Sys2Proof.Machine

/-- CMDENC (R100): any 2-bit kind is packed, `0b10` included (R79). -/
def execCmdenc (kind : BitVec 2) (addr : BitVec 5) (s : State) : Host.Outcome State Fault Refusal :=
  .next (compute { cmd := some (commandByte kind addr) } s)

end Sys2Proof.Machine
end

