-- ==== Sys2Proof/Machine/EnumTables.lean ====
section
/-! DEFINITION. The enumeration tables' operations (43_enum_tables.md). -/

namespace Sys2Proof.Machine

/-- PERSDEC (R152) -/
def execPersdec (b : Byte) (s : State) : Host.Outcome State Fault Refusal :=
  .next (compute { val := some (persdec s.rom b) } s)

/-- PERSENC (R153) -/
def execPersenc (val : Int) (s : State) : Host.Outcome State Fault Refusal :=
  .next (computeField (persenc s.rom val) s)

/-- GAINDEC (R154) -/
def execGaindec (b : Byte) (s : State) : Host.Outcome State Fault Refusal :=
  .next (compute { val := some (gaindec b) } s)

/-- GAINENC (R155) -/
def execGainenc (val : Int) (s : State) : Host.Outcome State Fault Refusal :=
  .next (computeField (gainenc val) s)

end Sys2Proof.Machine
end

