-- ==== Sys2Proof/Machine/FrontEnd.lean ====
section
/-! DEFINITION. The register-access front end (44_register_ops.md). Each operation validates and converts its operand,
issues at most one transaction, and drives its results (R170). -/

namespace Sys2Proof.Machine

/-- RDEN (R172) -/
def execRden (s : State) : Host.Outcome State Fault Refusal :=
  .next (readByte .enable (fun v => { fv := some (endec v) }) s)

/-- WREN (R173) -/
def execWren (fv : FlagVec) (s : State) : Host.Outcome State Fault Refusal :=
  .next (writeByte .enable (enenc fv) {} s)

/-- RDATIME (R174): never long wait (D16). -/
def execRdatime (s : State) : Host.Outcome State Fault Refusal :=
  .next (readByte .atime (fun v => { ms := some (t2ms v false) }) s)

/-- WRATIME (R175): never long wait (D16). -/
def execWratime (ms : Int) (s : State) : Host.Outcome State Fault Refusal :=
  .next (writeTime .atime ms false s)

/-- RDWTIME (R176): the long-wait choice is the request's, not CONFIG's (R258). -/
def execRdwtime (lng : Bool) (s : State) : Host.Outcome State Fault Refusal :=
  .next (readByte .wtime (fun v => { ms := some (t2ms v lng) }) s)

/-- WRWTIME (R177) -/
def execWrwtime (ms : Int) (lng : Bool) (s : State) : Host.Outcome State Fault Refusal :=
  .next (writeTime .wtime ms lng s)

/-- RDAILT (R178) -/
def execRdailt (s : State) : Host.Outcome State Fault Refusal :=
  .next (readWord .ailt (fun v => { word := some v }) s)

/-- WRAILT (R179): no validation. -/
def execWrailt (w : Word16) (s : State) : Host.Outcome State Fault Refusal :=
  .next (writeWord .ailt w {} s)

/-- RDAIHT (R180) -/
def execRdaiht (s : State) : Host.Outcome State Fault Refusal :=
  .next (readWord .aiht (fun v => { word := some v }) s)

/-- WRAIHT (R181): no validation. -/
def execWraiht (w : Word16) (s : State) : Host.Outcome State Fault Refusal :=
  .next (writeWord .aiht w {} s)

/-- RDPERS (R182) -/
def execRdpers (s : State) : Host.Outcome State Fault Refusal :=
  .next (readByte .pers (fun v => { val := some (persdec s.rom v) }) s)

/-- WRPERS (R183): bits 7:4 are written 0. -/
def execWrpers (val : Int) (s : State) : Host.Outcome State Fault Refusal :=
  .next (writeField .pers (persenc s.rom val) s)

/-- RDCFG (R184) -/
def execRdcfg (s : State) : Host.Outcome State Fault Refusal :=
  .next (readByte .config (fun v => { fv := some (cfgdec v) }) s)

/-- WRCFG (R185) -/
def execWrcfg (fv : FlagVec) (s : State) : Host.Outcome State Fault Refusal :=
  .next (writeByte .config (cfgenc fv) {} s)

/-- RDGAIN (R186) -/
def execRdgain (s : State) : Host.Outcome State Fault Refusal :=
  .next (readByte .control (fun v => { val := some (gaindec v) }) s)

/-- WRGAIN (R187): bits 7:2 are written 0 (D12). -/
def execWrgain (val : Int) (s : State) : Host.Outcome State Fault Refusal :=
  .next (writeField .control (gainenc val) s)

/-- RDID (R188): the raw byte. -/
def execRdid (s : State) : Host.Outcome State Fault Refusal :=
  .next (readByte .id (fun v => { byte := some v }) s)

/-- WRID (R189) -/
def execWrid (s : State) : Host.Outcome State Fault Refusal :=
  .next (reject .readOnlyViolation s)

/-- RDSTATUS (R190) -/
def execRdstatus (s : State) : Host.Outcome State Fault Refusal :=
  .next (readByte .status (fun v => { fv := some (stdec v) }) s)

/-- WRSTATUS (R191) -/
def execWrstatus (s : State) : Host.Outcome State Fault Refusal :=
  .next (reject .readOnlyViolation s)

/-- RDC0 (R192) -/
def execRdc0 (s : State) : Host.Outcome State Fault Refusal :=
  .next (readWord .c0data (fun v => { word := some v }) s)

/-- WRC0 (R193) -/
def execWrc0 (s : State) : Host.Outcome State Fault Refusal :=
  .next (reject .readOnlyViolation s)

/-- RDC1 (R194) -/
def execRdc1 (s : State) : Host.Outcome State Fault Refusal :=
  .next (readWord .c1data (fun v => { word := some v }) s)

/-- WRC1 (R195) -/
def execWrc1 (s : State) : Host.Outcome State Fault Refusal :=
  .next (reject .readOnlyViolation s)

end Sys2Proof.Machine
end

