-- ==== Sys2Proof/Machine/Timing.lean ====
section
/-! DEFINITION. The timing converter's operations (42_timing.md). -/

namespace Sys2Proof.Machine

/-- T2MS (R131) -/
def execT2ms (b : Byte) (lng : Bool) (s : State) : Host.Outcome State Fault Refusal :=
  .next (compute { ms := some (t2ms b lng) } s)

/-- MS2T (R132): RangeError, or the stored byte and the achieved time. -/
def execMs2t (ms : Int) (lng : Bool) (s : State) : Host.Outcome State Fault Refusal :=
  .next (match ms2t ms lng with
    | some (b, achieved) => compute { byte := some b, ms := some achieved } s
    | none => reject .rangeError s)

end Sys2Proof.Machine
end

