-- ==== Sys2Proof/Machine/Dispatch.lean ====
section
/-! DEFINITION. One arm per operation of the opcode table (30_encoding.md R73, R74). -/

namespace Sys2Proof.Machine

/-- The meaning of one operation with its operands. -/
def exec (i : Instr) (s : State) : Host.Outcome State Fault Refusal :=
  match i with
  | .cmdenc kind addr => Sys2Proof.Machine.execCmdenc kind addr s
  | .endec b => Sys2Proof.Machine.execEndec b s
  | .enenc fv => Sys2Proof.Machine.execEnenc fv s
  | .cfgdec b => Sys2Proof.Machine.execCfgdec b s
  | .cfgenc fv => Sys2Proof.Machine.execCfgenc fv s
  | .stdec b => Sys2Proof.Machine.execStdec b s
  | .t2ms b lng => Sys2Proof.Machine.execT2ms b lng s
  | .ms2t ms lng => Sys2Proof.Machine.execMs2t ms lng s
  | .persdec b => Sys2Proof.Machine.execPersdec b s
  | .persenc val => Sys2Proof.Machine.execPersenc val s
  | .gaindec b => Sys2Proof.Machine.execGaindec b s
  | .gainenc val => Sys2Proof.Machine.execGainenc val s
  | .rden => Sys2Proof.Machine.execRden s
  | .wren fv => Sys2Proof.Machine.execWren fv s
  | .rdatime => Sys2Proof.Machine.execRdatime s
  | .wratime ms => Sys2Proof.Machine.execWratime ms s
  | .rdwtime lng => Sys2Proof.Machine.execRdwtime lng s
  | .wrwtime ms lng => Sys2Proof.Machine.execWrwtime ms lng s
  | .rdailt => Sys2Proof.Machine.execRdailt s
  | .wrailt w => Sys2Proof.Machine.execWrailt w s
  | .rdaiht => Sys2Proof.Machine.execRdaiht s
  | .wraiht w => Sys2Proof.Machine.execWraiht w s
  | .rdpers => Sys2Proof.Machine.execRdpers s
  | .wrpers val => Sys2Proof.Machine.execWrpers val s
  | .rdcfg => Sys2Proof.Machine.execRdcfg s
  | .wrcfg fv => Sys2Proof.Machine.execWrcfg fv s
  | .rdgain => Sys2Proof.Machine.execRdgain s
  | .wrgain val => Sys2Proof.Machine.execWrgain val s
  | .rdid => Sys2Proof.Machine.execRdid s
  | .wrid => Sys2Proof.Machine.execWrid s
  | .rdstatus => Sys2Proof.Machine.execRdstatus s
  | .wrstatus => Sys2Proof.Machine.execWrstatus s
  | .rdc0 => Sys2Proof.Machine.execRdc0 s
  | .wrc0 => Sys2Proof.Machine.execWrc0 s
  | .rdc1 => Sys2Proof.Machine.execRdc1 s
  | .wrc1 => Sys2Proof.Machine.execWrc1 s

end Sys2Proof.Machine
end

