-- ==== Sys2Proof/Machine/Step.lean ====
section
/-! DEFINITION. One step: the host makes its next move at the ports, and the block answers it (10_state.md R21,
20_memory.md R57). -/

namespace Sys2Proof.Machine

/-- One request is one step. A reserved `op` raises IllegalOperation (R226, R227). Two overlapping requests are refused
(R240). With no request presented nothing is driven (assumption 3). Reset undrives the ports and touches no more (R250,
assumption 13). -/
def step (s : State) : Host.Outcome State Fault Refusal :=
  match nextMove s with
  | none => .next (withdraw s)
  | some (.present r, s') =>
    match decode r with
    | .ok i => exec i s'
    | .error e => .next (rejectRequest e s')
  | some (.overlap _ _, _) => .refused .overlappingRequests
  | some (.reset, s') => .next (withdraw s')

/-- The state in which the host presents next the request whose first `nbits` bits are `w` (assumption 2). -/
def State.withFetchWord (s : State) (nbits w : Nat) : State :=
  { s with host := .present (Request.ofTableWord nbits w) :: s.host }

end Sys2Proof.Machine
end

