-- ==== Sys2Proof/Safety.lean ====
section
/-! DEFINITION. The terms claims are made in: how a request ends and what it leaves alone (60_exceptions.md R221, R228),
which error it ends in (R227), and what a legal transaction on the bus is (10_state.md R30, 44_register_ops.md R170,
70_reset_and_hazards.md R257). They are written from the spec's tables, not from the meanings. -/

namespace Sys2Proof.Machine

/-! ### How a request ends -/

/-- The result ports other than `err` (R26). -/
inductive ResultPort where
  | cmd | byte | fv | ms | val | word
  deriving DecidableEq, Repr

/-- Every result port outside `ports` is undriven: it shows the free value of this request, whatever that is (R29). -/
def OnlyDrives (ports : List ResultPort) (s t : State) : Prop :=
  (.cmd ∉ ports → t.rCmd = Config.undrivenCmd s.draws) ∧
  (.byte ∉ ports → t.rByte = Config.undrivenByte s.draws) ∧
  (.fv ∉ ports → t.rFv = Config.undrivenFv s.draws) ∧
  (.ms ∉ ports → t.rMs = Config.undrivenMs s.draws) ∧
  (.val ∉ ports → t.rVal = Config.undrivenVal s.draws) ∧
  (.word ∉ ports → t.rWord = Config.undrivenWord s.draws)

/-- No output port is driven: `err` and every result port show the free value number `n` (R22, R250; assumption 4), no
transaction is requested, and so does the rest of the descriptor (assumption 5). -/
def NothingDriven (n : Nat) (t : State) : Prop :=
  t.err = Config.undrivenErr n ∧
  t.rCmd = Config.undrivenCmd n ∧ t.rByte = Config.undrivenByte n ∧ t.rFv = Config.undrivenFv n ∧
  t.rMs = Config.undrivenMs n ∧ t.rVal = Config.undrivenVal n ∧ t.rWord = Config.undrivenWord n ∧
  t.txValid = false ∧
  t.txWrite = Config.undrivenTxWrite n ∧ t.txWord = Config.undrivenTxWord n ∧
  t.txCmd = Config.undrivenTxCmd n ∧ t.txWdata = Config.undrivenTxWdata n

/-- What every request leaves alone: the ROM (R24) and the host's moves still to come (R21). -/
def Kept (s t : State) : Prop := t.rom = s.rom ∧ t.host = s.host

/-- The request issued no transaction (R27): the transport was asked for nothing and gave no answer. -/
def NoTransaction (s t : State) : Prop :=
  t.txValid = false ∧ t.issued = s.issued ∧ t.responses = s.responses

/-- The request issued exactly the transaction `x` (R27), and the transport answered it once. -/
def OneTransaction (x : Txn) (s t : State) : Prop :=
  t.txValid = true ∧ t.txWrite = x.write ∧ t.txWord = x.word ∧ t.txCmd = x.cmd ∧ t.txWdata = x.wdata ∧
  t.issued = s.issued ++ [x] ∧ t.responses = s.responses.tail

/-- Success of a request that computes only, driving `ports`. -/
def Computes (ports : List ResultPort) (s t : State) : Prop :=
  t.err = 0 ∧ NoTransaction s t ∧ OnlyDrives ports s t ∧ Kept s t

/-- The error `code` with no transaction issued (R228). -/
def Rejects (code : BitVec 3) (s t : State) : Prop :=
  t.err = code ∧ NoTransaction s t ∧ OnlyDrives [] s t ∧ Kept s t

/-- Success of a request that issues `x`, driving `ports`. -/
def Transacts (x : Txn) (ports : List ResultPort) (s t : State) : Prop :=
  t.err = 0 ∧ OneTransaction x s t ∧ OnlyDrives ports s t ∧ Kept s t

/-- TransportError: `x` was issued and failed (R171). -/
def TransportFails (x : Txn) (s t : State) : Prop :=
  t.err = 4 ∧ OneTransaction x s t ∧ OnlyDrives [] s t ∧ Kept s t

/-- The result ports an operation's rule drives on success (R100 to R195). -/
def drives : Instr → List ResultPort
  | .cmdenc _ _ => [.cmd]
  | .enenc _ | .cfgenc _ | .persenc _ | .gainenc _ | .rdid => [.byte]
  | .endec _ | .cfgdec _ | .stdec _ | .rden | .rdcfg | .rdstatus => [.fv]
  | .t2ms _ _ | .rdatime | .rdwtime _ => [.ms]
  | .ms2t _ _ | .wratime _ | .wrwtime _ _ => [.byte, .ms]
  | .persdec _ | .gaindec _ | .rdpers | .rdgain => [.val]
  | .rdailt | .rdaiht | .rdc0 | .rdc1 => [.word]
  | .wren _ | .wrailt _ | .wraiht _ | .wrpers _ | .wrcfg _ | .wrgain _ | .wrid | .wrstatus | .wrc0 | .wrc1 => []

/-! ### Which error a request ends in -/

/-- The 28 reserved codes of R75. -/
def reservedOps : List (BitVec 6) :=
  [0x06, 0x07, 0x0A, 0x0B,
   0x10, 0x11, 0x12, 0x13, 0x14, 0x15, 0x16, 0x17, 0x18, 0x19, 0x1A, 0x1B, 0x1C, 0x1D, 0x1E, 0x1F,
   0x38, 0x39, 0x3A, 0x3B, 0x3C, 0x3D, 0x3E, 0x3F]

/-- The persistence counts, index 0 first (R150): 6 to 14 are the ROM's. -/
def persCounts (rom : Rom) : List Byte := [0, 1, 2, 3, 5, 10] ++ rom.persOpen.toList ++ [60]

/-- `v` is a persistence count (R153). -/
def IsPersCount (rom : Rom) (v : Int) : Prop := ∃ e ∈ persCounts rom, (e.toNat : Int) = v

/-- Both tables are strictly increasing (R156); the gain table is so by its contents. -/
def RomIncreasing (rom : Rom) : Prop := (persCounts rom).Pairwise (fun a b => a.toNat < b.toNat)

/-- `u(lng)` of R130. -/
def stepOf (lng : Bool) : Int := if lng then 3276 else 273

/-- The requested times that quantize to a register byte (R133). -/
def TimeInRange (ms : Int) (lng : Bool) : Prop := stepOf lng ≤ ms ∧ ms < 257 * stepOf lng

/-- Operand validation fails with RangeError (R222). WRATIME never uses long wait (R175). -/
def TimeInvalid (r : Request) : Prop :=
  (r.op ∈ [(0x09 : BitVec 6), 0x25] ∧ ¬ TimeInRange r.ms.toInt r.lng) ∨
  (r.op = 0x23 ∧ ¬ TimeInRange r.ms.toInt false)

/-- Operand validation fails with UnsupportedValueError (R223). -/
def ValueInvalid (rom : Rom) (r : Request) : Prop :=
  (r.op ∈ [(0x0D : BitVec 6), 0x2B] ∧ ¬ IsPersCount rom r.val.toInt) ∨
  (r.op ∈ [(0x0F : BitVec 6), 0x2F] ∧ r.val.toInt ∉ [(1 : Int), 8, 16, 120])

/-- `err` as the checks of R227 decide it, in their order: the first that fails. -/
def EndsWith (rom : Rom) (r : Request) (tOk : Bool) (code : BitVec 3) : Prop :=
  if r.op ∈ reservedOps then code = 5
  else if r.op ∈ [(0x31 : BitVec 6), 0x33, 0x35, 0x37] then code = 3
  else (TimeInvalid r → code = 1) ∧ (ValueInvalid rom r → code = 2) ∧
    (¬ TimeInvalid r → ¬ ValueInvalid rom r → code = if r.op.getLsbD 5 && !tOk then 4 else 0)

/-! ### Legal transactions -/

/-- A device register as the bus sees it (R30): its address, whether it is 16 bits wide, and which bits a write through
the block can set (R257; none for a read-only register). -/
structure DeviceRegister where
  address : BitVec 5
  word : Bool
  writable : Bool
  writeMask : Word16
  deriving DecidableEq, Repr

/-- The device register map of R30, with the bits each write can set (R31, R35, R36, R37). -/
def deviceMap : List DeviceRegister :=
  [⟨0x00, false, true, 0x005B⟩, ⟨0x01, false, true, 0x00FF⟩, ⟨0x03, false, true, 0x00FF⟩,
   ⟨0x04, true, true, 0xFFFF⟩, ⟨0x06, true, true, 0xFFFF⟩, ⟨0x0C, false, true, 0x000F⟩,
   ⟨0x0D, false, true, 0x0006⟩, ⟨0x0F, false, true, 0x0003⟩, ⟨0x12, false, false, 0⟩,
   ⟨0x13, false, false, 0⟩, ⟨0x14, true, false, 0⟩, ⟨0x16, true, false, 0⟩]

/-- The transaction is one the block may ask for: the command byte `{1, kind, address}` of a register of the map with
that register's kind (R70, R102, R170) and width (R53); no write to a read-only register (R224); no bit of the data
beyond the register's (R257), and no data on a read (R29). -/
def LegalTxn (rom : Rom) (x : Txn) : Prop :=
  ∃ d ∈ deviceMap,
    x.cmd = 1#1 ++ (if d.word then rom.kindAutoinc else 0#2) ++ d.address ∧ x.word = d.word ∧
    (x.write = true → d.writable = true ∧ x.wdata &&& ~~~ d.writeMask = 0) ∧ (x.write = false → x.wdata = 0)

/-! ### Whose transactions they are -/

/-- The request passes every check that comes before the transaction, so it issues one (R57, R170). -/
def Asks (rom : Rom) (r : Request) : Prop :=
  r.op.getLsbD 5 = true ∧ r.op ∉ reservedOps ∧ r.op ∉ [(0x31 : BitVec 6), 0x33, 0x35, 0x37] ∧
  ¬ TimeInvalid r ∧ ¬ ValueInvalid rom r

/-- `x` is a transaction of the request `r`: on the register that `op` selects, the codes of R74 running through the map
of R30 in its order with the read before the write, and in the direction of `op`. -/
def TxnOf (rom : Rom) (r : Request) (x : Txn) : Prop :=
  x.write = r.op.getLsbD 0 ∧
  ∃ d, deviceMap[(r.op.extractLsb' 1 4).toNat]? = some d ∧
    x.cmd = 1#1 ++ (if d.word then rom.kindAutoinc else 0#2) ++ d.address ∧ x.word = d.word

/-- `xs` is what the block asks of the transport for one move of the host: for a request that passes the checks one
transaction of that request, and for every other move none. Overlapping requests have no next state (R240). -/
def Serves (rom : Rom) (m : HostMove) (xs : List Txn) : Prop :=
  match m with
  | .present r => (Asks rom r → ∃ x, xs = [x] ∧ TxnOf rom r x) ∧ (¬ Asks rom r → xs = [])
  | .overlap _ _ => False
  | .reset => xs = []

/-! ### The safe bus -/

/-- The bus is safe: every transaction ever asked for is legal, and a descriptor on the ports is the last of them. -/
def BusSafe (s : State) : Prop :=
  (∀ x ∈ s.issued, LegalTxn s.rom x) ∧
  (s.txValid = true → s.issued.getLast? = some ⟨s.txWrite, s.txWord, s.txCmd, s.txWdata⟩)

end Sys2Proof.Machine
end

