-- ==== Sys2Proof/Certificates/Slice0/Obligations.lean ====
section
/-! DEFINITION. The statements for the provers. Each says in its docstring which rule of spec/ it formalises. A statement
about one operation first says which `op` selects it and which ports it reads, then what a request of it does in every
state. Where a statement speaks of the host's moves, the transport's answers, the free value of an undriven port or the
record of transactions, it does so in the model's own form of them (assumptions 2, 6, 4 and 11). -/

open Sys2Proof Sys2Proof.Machine

/-! ### Requests and their encoding -/

/-- 30_encoding.md R73, R74, R76, R77: the decoder reads back every well-formed instruction the encoder lays on the ports,
whatever the other ports carry (R25). -/
def Obligations.DecodeReadsBackEncode : Prop :=
  ∀ (base : Request) (i : Instr), i.wellFormed = true → decode (encodeOver base i) = .ok i

/-- The other direction: a request that decodes is the encoding of exactly the instruction read, which its ports can
carry. -/
def Obligations.EncodeRebuildsDecodedRequest : Prop :=
  ∀ (r : Request) (i : Instr), decode r = .ok i → i.wellFormed = true ∧ encodeOver r i = r

/-- R25, R76: an operation ignores every port outside its format. -/
def Obligations.OnlyFormatPortsAreRead : Prop :=
  ∀ (r r' : Request) (i : Instr),
    decode r = .ok i → r'.op = r.op → i.format.agree r r' → decode r' = .ok i

/-- R75 with R226: the 28 reserved codes raise IllegalOperation with no transaction and no result; every other code
selects an operation, which the step executes. -/
def Obligations.ReservedCodesRaiseIllegalOperation : Prop :=
  reservedOps.length = 28 ∧ reservedOps.Nodup ∧
  (∀ (s : State) (r : Request) (rest : List HostMove), s.host = .present r :: rest → r.op ∈ reservedOps →
    ∃ t, step s = .next t ∧ Rejects 5 { s with host := rest } t) ∧
  (∀ (s : State) (r : Request) (rest : List HostMove), s.host = .present r :: rest → r.op ∉ reservedOps →
    ∃ i, decode r = .ok i ∧ step s = exec i { s with host := rest })

/-- The model's own numbering of a request's 107 bits (assumption 1) loses nothing: bits and ports correspond one to
one. -/
def Obligations.RequestBitsRoundTrip : Prop :=
  (∀ r : Request, Request.ofBits r.toBits = r) ∧ (∀ w : BitVec 107, (Request.ofBits w).toBits = w)

/-- A few words decode to the operations they stand for. Their operation codes and operand widths are those of R73, R74
and R77; the positions of the operands in a word are the model's choice (assumption 1), since the spec gives none. -/
def Obligations.WrittenWordsDecode : Prop :=
  -- op 000000, kind 00, addr 01101
  decodeTableWord 16 0b01101_00_000000 = some (.cmdenc 0b00 0x0D) ∧
  -- op 000010, kind 00, addr 00000, fv 00011
  decodeTableWord 24 0b00011_00000_00_000010 = some (.enenc 0b00011) ∧
  -- op 001000, b 1101_1100, lng 0
  decodeTableWord 32 0b0_11011100_00000_00000_00_001000 = some (.t2ms 0xDC false) ∧
  -- op 001101, val 5
  decodeTableWord 96 (5 * 2 ^ 59 + 0b001101) = some (.persenc 5) ∧
  -- op 100101, ms 100000, lng 1
  decodeTableWord 64 (100000 * 2 ^ 27 + 2 ^ 26 + 0b100101) = some (.wrwtime 100000 true) ∧
  -- op 110111
  decodeTableWord 8 0b110111 = some .wrc1 ∧
  -- op 000110 is reserved
  decodeTableWord 8 0b000110 = none

/-! ### The step -/

/-- A step takes the request the host presents next and executes the operation it decodes to. That requests come on ports
and are performed one at a time is 10_state.md R21 and 20_memory.md R57. The model's choice is that one step takes the head
of `State.host` and executes it whole (assumption 2), and the word that `decodeTableWord` and `withFetchWord` read
(assumption 1). -/
def Obligations.StepExecutesPresentedRequest : Prop :=
  (∀ (s : State) (r : Request) (rest : List HostMove) (i : Instr),
    s.host = .present r :: rest → decode r = .ok i → step s = exec i { s with host := rest }) ∧
  (∀ (s : State) (nbits w : Nat) (i : Instr),
    decodeTableWord nbits w = some i → step (s.withFetchWord nbits w) = exec i s)

/-- 60_exceptions.md R240, R237: two overlapping requests are refused, by a name of the model's (assumption 12). -/
def Obligations.OverlappingRequestsAreRefused : Prop :=
  ∀ (s : State) (r r' : Request) (rest : List HostMove),
    s.host = .overlap r r' :: rest → step s = .refused .overlappingRequests

/-- With no request presented nothing is driven, `err` among it (R22), and no transaction is requested, the model's choice
(assumption 3); so too when reset is asserted (R250, assumption 13), which changes nothing else. What an undriven port
shows is a free value, the model's choice too (assumptions 4 and 5). -/
def Obligations.IdleAndResetDriveNothing : Prop :=
  (∀ s : State, s.host = [] →
    ∃ t, step s = .next t ∧ NothingDriven s.draws t ∧ NoTransaction s t ∧ Kept s t) ∧
  (∀ (s : State) (rest : List HostMove), s.host = .reset :: rest →
    ∃ t, step s = .next t ∧ NothingDriven s.draws t ∧ NoTransaction s t ∧ Kept { s with host := rest } t)

/-- 70_reset_and_hazards.md R250: at reset `err` and the result ports are undriven, no transaction is requested, and the
tables hold their contents. The model's choices are the free values an undriven port shows (assumptions 4 and 5) and the
open entries, at the defaults of R7 (assumption 7). -/
def Obligations.ResetHoldsTheConstants : Prop :=
  NothingDriven 0 State.reset ∧ State.reset.issued = [] ∧ State.reset.rom.kindAutoinc = 0b01 ∧
  State.reset.rom.kindSpecial = 0b11 ∧
  persCounts State.reset.rom = [0, 1, 2, 3, 5, 10, 15, 20, 25, 30, 35, 40, 45, 50, 55, 60] ∧
  RomIncreasing State.reset.rom

/-- 60_exceptions.md R221: every operation completes, in every state and for all operands, and leaves the ROM and the
host's later moves alone. -/
def Obligations.EveryOperationCompletes : Prop :=
  ∀ (i : Instr) (s : State), ∃ t, exec i s = .next t ∧ Kept s t

/-! ### Command codec -/

/-- 40_command_codec.md R100. -/
def Obligations.CmdencPacksCommandByte : Prop :=
  (∀ r : Request, r.op = 0x00#6 → decode r = .ok (.cmdenc r.kind r.addr)) ∧
  ∀ (kind : BitVec 2) (addr : BitVec 5) (s : State), ∃ t, exec (.cmdenc kind addr) s = .next t ∧
    Computes [.cmd] s t ∧ t.rCmd = 1#1 ++ kind ++ addr ∧
    t.rCmd.toNat = 0x80 + 32 * kind.toNat + addr.toNat

/-- R101: CMDENC is injective, never gives a byte below 0x80, and its inverse on [0x80, 0xFF] takes bits 6:5 and 4:0. -/
def Obligations.CmdencIsInjectiveWithInverse : Prop :=
  (∀ (k k' : BitVec 2) (a a' : BitVec 5) (s s' t t' : State),
    exec (.cmdenc k a) s = .next t → exec (.cmdenc k' a') s' = .next t' → t.rCmd = t'.rCmd → k = k' ∧ a = a') ∧
  (∀ (k : BitVec 2) (a : BitVec 5) (s t : State), exec (.cmdenc k a) s = .next t →
    t.rCmd.getLsbD 7 = true ∧ t.rCmd.extractLsb' 5 2 = k ∧ t.rCmd.extractLsb' 0 5 = a) ∧
  (∀ (c : Byte) (s : State), 0x80 ≤ c.toNat →
    ∃ t, exec (.cmdenc (c.extractLsb' 5 2) (c.extractLsb' 0 5)) s = .next t ∧ t.rCmd = c)

/-! ### Bit-field registers -/

/-- 41_bitfield.md R110. -/
def Obligations.EndecUnpacksEnable : Prop :=
  (∀ r : Request, r.op = 0x01#6 → decode r = .ok (.endec r.b)) ∧
  ∀ (b : Byte) (s : State), ∃ t, exec (.endec b) s = .next t ∧ Computes [.fv] s t ∧
    t.rFv.getLsbD 4 = (b &&& 0x40 != 0) ∧ t.rFv.getLsbD 3 = (b &&& 0x10 != 0) ∧
    t.rFv.getLsbD 2 = (b &&& 0x08 != 0) ∧ t.rFv.getLsbD 1 = (b &&& 0x02 != 0) ∧
    t.rFv.getLsbD 0 = (b &&& 0x01 != 0)

/-- The byte R111 packs. -/
def enablePacked (fv : FlagVec) : Byte :=
  (if fv.getLsbD 4 then 0x40 else 0) ||| (if fv.getLsbD 3 then 0x10 else 0) |||
  (if fv.getLsbD 2 then 0x08 else 0) ||| (if fv.getLsbD 1 then 0x02 else 0) |||
  (if fv.getLsbD 0 then 0x01 else 0)

/-- 41_bitfield.md R111. -/
def Obligations.EnencPacksEnable : Prop :=
  (∀ r : Request, r.op = 0x02#6 → decode r = .ok (.enenc r.fv)) ∧
  ∀ (fv : FlagVec) (s : State), ∃ t, exec (.enenc fv) s = .next t ∧ Computes [.byte] s t ∧
    t.rByte = enablePacked fv

/-- 41_bitfield.md R112: both round trips of ENABLE, each through two requests. -/
def Obligations.EnableRoundTrips : Prop :=
  (∀ (fv : FlagVec) (s s' : State), ∃ t t', exec (.enenc fv) s = .next t ∧
    exec (.endec t.rByte) s' = .next t' ∧ t'.rFv = fv) ∧
  (∀ (b : Byte) (s s' : State), ∃ t t', exec (.endec b) s = .next t ∧
    exec (.enenc t.rFv) s' = .next t' ∧ t'.rByte = b &&& 0x5B)

/-- 41_bitfield.md R113. -/
def Obligations.CfgdecUnpacksConfig : Prop :=
  (∀ r : Request, r.op = 0x03#6 → decode r = .ok (.cfgdec r.b)) ∧
  ∀ (b : Byte) (s : State), ∃ t, exec (.cfgdec b) s = .next t ∧ Computes [.fv] s t ∧
    t.rFv.extractLsb' 2 3 = 0b000 ∧ t.rFv.getLsbD 1 = (b &&& 0x04 != 0) ∧ t.rFv.getLsbD 0 = (b &&& 0x02 != 0)

/-- 41_bitfield.md R114. -/
def Obligations.CfgencPacksConfig : Prop :=
  (∀ r : Request, r.op = 0x04#6 → decode r = .ok (.cfgenc r.fv)) ∧
  ∀ (fv : FlagVec) (s : State), ∃ t, exec (.cfgenc fv) s = .next t ∧ Computes [.byte] s t ∧
    t.rByte = (if fv.getLsbD 1 then 0x04 else 0) ||| (if fv.getLsbD 0 then 0x02 else 0)

/-- 41_bitfield.md R115: the round trips of CONFIG. -/
def Obligations.ConfigRoundTrips : Prop :=
  (∀ (fv : FlagVec) (s s' : State), ∃ t t', exec (.cfgenc fv) s = .next t ∧
    exec (.cfgdec t.rByte) s' = .next t' ∧ t'.rFv.extractLsb' 0 2 = fv.extractLsb' 0 2 ∧
    (fv.extractLsb' 2 3 = 0b000 → t'.rFv = fv)) ∧
  (∀ (b : Byte) (s s' : State), ∃ t t', exec (.cfgdec b) s = .next t ∧
    exec (.cfgenc t.rFv) s' = .next t' ∧ t'.rByte = b &&& 0x06)

/-- 41_bitfield.md R116. -/
def Obligations.StdecUnpacksStatus : Prop :=
  (∀ r : Request, r.op = 0x05#6 → decode r = .ok (.stdec r.b)) ∧
  ∀ (b : Byte) (s : State), ∃ t, exec (.stdec b) s = .next t ∧ Computes [.fv] s t ∧
    t.rFv.extractLsb' 2 3 = 0b000 ∧ t.rFv.getLsbD 1 = (b &&& 0x10 != 0) ∧ t.rFv.getLsbD 0 = (b &&& 0x01 != 0)

/-! ### Timing converter -/

/-- 42_timing.md R131, with the step of R130. -/
def Obligations.T2msGivesEncodedTime : Prop :=
  (∀ r : Request, r.op = 0x08#6 → decode r = .ok (.t2ms r.b r.lng)) ∧
  ∀ (b : Byte) (lng : Bool) (s : State), ∃ t, exec (.t2ms b lng) s = .next t ∧ Computes [.ms] s t ∧
    (t.rMs.toNat : Int) = (256 - (b.toNat : Int)) * stepOf lng

/-- 42_timing.md R132: RangeError exactly when the quantized byte is outside [0, 255], else the byte and the time it
achieves. `Int.fdiv` is the floor of R9. -/
def Obligations.Ms2tQuantizesOrRejects : Prop :=
  (∀ r : Request, r.op = 0x09#6 → decode r = .ok (.ms2t r.ms.toInt r.lng)) ∧
  ∀ (ms : Int) (lng : Bool) (s : State),
    (256 - ms.fdiv (stepOf lng) < 0 ∨ 256 - ms.fdiv (stepOf lng) > 255 →
      ∃ t, exec (.ms2t ms lng) s = .next t ∧ Rejects 1 s t) ∧
    (0 ≤ 256 - ms.fdiv (stepOf lng) → 256 - ms.fdiv (stepOf lng) ≤ 255 →
      ∃ t, exec (.ms2t ms lng) s = .next t ∧ Computes [.byte, .ms] s t ∧
        (t.rByte.toNat : Int) = 256 - ms.fdiv (stepOf lng) ∧
        (t.rMs.toNat : Int) = ms.fdiv (stepOf lng) * stepOf lng)

/-- 42_timing.md R133: MS2T succeeds exactly on [u, 257·u), and otherwise ends with RangeError. -/
def Obligations.Ms2tLegalRange : Prop :=
  ∀ (ms : Int) (lng : Bool) (s t : State), exec (.ms2t ms lng) s = .next t →
    (t.err = 0 ↔ stepOf lng ≤ ms ∧ ms < 257 * stepOf lng) ∧ (t.err = 0 ∨ t.err = 1)

/-- 42_timing.md R134: the achieved time never exceeds the request and falls short by less than one step; of the two
bytes that bracket the request the stored one is the higher. -/
def Obligations.QuantizationIsTowardShorterTime : Prop :=
  ∀ (ms : Int) (lng : Bool) (s t : State), exec (.ms2t ms lng) s = .next t → t.err = 0 →
    (t.rMs.toNat : Int) ≤ ms ∧ ms < (t.rMs.toNat : Int) + stepOf lng ∧
    (256 - (t.rByte.toNat : Int)) * stepOf lng ≤ ms ∧ ms < (256 - ((t.rByte.toNat : Int) - 1)) * stepOf lng

/-- 42_timing.md R135: byte to time to byte is exact; the time a request achieves reads back as itself. -/
def Obligations.TimeRoundTripIsExact : Prop :=
  (∀ (b : Byte) (lng : Bool) (s s' : State), ∃ t t', exec (.t2ms b lng) s = .next t ∧
    exec (.ms2t (t.rMs.toNat : Int) lng) s' = .next t' ∧ t'.err = 0 ∧ t'.rByte = b ∧ t'.rMs = t.rMs) ∧
  (∀ (ms : Int) (lng : Bool) (s s' t : State), exec (.ms2t ms lng) s = .next t → t.err = 0 →
    ∃ t', exec (.t2ms t.rByte lng) s' = .next t' ∧ t'.rMs = t.rMs ∧ (t'.rMs.toNat : Int) ≤ ms)

/-- 42_timing.md R137: driving `floor(100·m)` gives the byte of the source's real-number formula for every real time `m`
in milliseconds, and RangeError where that formula leaves [0, 255]. That MS2T itself ends so on a time no 32-bit port carries is the
model's (assumption 9, DEDUCED): R137 gives that report to the host. -/
def Obligations.Ms2tMatchesRealFormula : Prop :=
  (∀ (m : ℝ) (n : ℕ), 0 < n → ⌊100 * m / (n : ℝ)⌋ = ⌊100 * m⌋.fdiv (n : Int)) ∧
  (∀ (m : ℝ) (lng : Bool) (s : State),
    let byte : Int := 256 - ⌊m / (2.73 * (if lng then 12 else 1))⌋
    (byte < 0 ∨ 255 < byte → ∃ t, exec (.ms2t ⌊100 * m⌋ lng) s = .next t ∧ Rejects 1 s t) ∧
    (0 ≤ byte → byte ≤ 255 → ∃ t, exec (.ms2t ⌊100 * m⌋ lng) s = .next t ∧ t.err = 0 ∧
      (t.rByte.toNat : Int) = byte)) ∧
  (∀ (m : ℝ) (lng : Bool) (s : State), 100 * m < -2 ^ 31 ∨ 2 ^ 31 ≤ 100 * m →
    ∃ t, exec (.ms2t ⌊100 * m⌋ lng) s = .next t ∧ Rejects 1 s t)

/-- 42_timing.md R139: the outcome of every request, error, byte and achieved time, is the one that truncating toward zero
instead of flooring gives. -/
def Obligations.TruncationGivesTheSameOutcome : Prop :=
  ∀ (ms : Int) (lng : Bool) (s : State),
    (256 - ms.tdiv (stepOf lng) < 0 ∨ 256 - ms.tdiv (stepOf lng) > 255 →
      ∃ t, exec (.ms2t ms lng) s = .next t ∧ Rejects 1 s t) ∧
    (0 ≤ 256 - ms.tdiv (stepOf lng) → 256 - ms.tdiv (stepOf lng) ≤ 255 →
      ∃ t, exec (.ms2t ms lng) s = .next t ∧ Computes [.byte, .ms] s t ∧
        (t.rByte.toNat : Int) = 256 - ms.tdiv (stepOf lng) ∧
        (t.rMs.toNat : Int) = ms.tdiv (stepOf lng) * stepOf lng)

/-- 42_timing.md R138: every time the converter gives lies in [273, 838656] and fits 20 bits. -/
def Obligations.TimesFitTwentyBits : Prop :=
  (∀ (b : Byte) (lng : Bool) (s t : State), exec (.t2ms b lng) s = .next t →
    273 ≤ t.rMs.toNat ∧ t.rMs.toNat ≤ 838656 ∧ t.rMs.extractLsb' 20 12 = 0) ∧
  (∀ (ms : Int) (lng : Bool) (s t : State), exec (.ms2t ms lng) s = .next t → t.err = 0 →
    273 ≤ t.rMs.toNat ∧ t.rMs.toNat ≤ 838656 ∧ t.rMs.extractLsb' 20 12 = 0)

/-! ### Enumeration tables -/

/-- 43_enum_tables.md R152, for the table of R150. -/
def Obligations.PersdecLooksUpCount : Prop :=
  (∀ r : Request, r.op = 0x0C#6 → decode r = .ok (.persdec r.b)) ∧
  ∀ (b : Byte) (s : State), ∃ t, exec (.persdec b) s = .next t ∧ Computes [.val] s t ∧
    (persCounts s.rom)[b.toNat % 16]? = some t.rVal

/-- 43_enum_tables.md R153: the index of the count, or UnsupportedValueError. -/
def Obligations.PersencFindsIndexOrRejects : Prop :=
  (∀ r : Request, r.op = 0x0D#6 → decode r = .ok (.persenc r.val.toInt)) ∧
  ∀ (val : Int) (s : State),
    (IsPersCount s.rom val → ∃ t, exec (.persenc val) s = .next t ∧ Computes [.byte] s t ∧ t.rByte.toNat < 16 ∧
      ((persCounts s.rom)[t.rByte.toNat]?.map (fun e => (e.toNat : Int))) = some val) ∧
    (¬ IsPersCount s.rom val → ∃ t, exec (.persenc val) s = .next t ∧ Rejects 2 s t)

/-- 43_enum_tables.md R154, for the table of R151. -/
def Obligations.GaindecLooksUpMultiplier : Prop :=
  (∀ r : Request, r.op = 0x0E#6 → decode r = .ok (.gaindec r.b)) ∧
  ∀ (b : Byte) (s : State), ∃ t, exec (.gaindec b) s = .next t ∧ Computes [.val] s t ∧
    [(1 : Byte), 8, 16, 120][b.toNat % 4]? = some t.rVal

/-- 43_enum_tables.md R155: the index of the multiplier, or UnsupportedValueError. -/
def Obligations.GainencFindsIndexOrRejects : Prop :=
  (∀ r : Request, r.op = 0x0F#6 → decode r = .ok (.gainenc r.val.toInt)) ∧
  ∀ (val : Int) (s : State),
    (∀ i : Nat, [(1 : Int), 8, 16, 120][i]? = some val →
      ∃ t, exec (.gainenc val) s = .next t ∧ Computes [.byte] s t ∧ t.rByte.toNat = i) ∧
    (val ∉ [(1 : Int), 8, 16, 120] → ∃ t, exec (.gainenc val) s = .next t ∧ Rejects 2 s t)

/-- 43_enum_tables.md R156: decode and encode undo each other. The gain table is strictly increasing; the last law holds
under every `PERS_TABLE` that is, as the premise says (the default of R150 is: `ResetHoldsTheConstants`). -/
def Obligations.EnumerationTableLaws : Prop :=
  gainTable.Pairwise (fun a b => a.toNat < b.toNat) ∧
  (∀ (v : Int) (s s' : State), v ∈ [(1 : Int), 8, 16, 120] → ∃ t t', exec (.gainenc v) s = .next t ∧
    exec (.gaindec t.rByte) s' = .next t' ∧ (t'.rVal.toNat : Int) = v) ∧
  (∀ (v : Int) (s s' : State), s'.rom = s.rom → IsPersCount s.rom v → ∃ t t', exec (.persenc v) s = .next t ∧
    exec (.persdec t.rByte) s' = .next t' ∧ (t'.rVal.toNat : Int) = v) ∧
  (∀ (b : Byte) (s s' : State), ∃ t t', exec (.gaindec b) s = .next t ∧
    exec (.gainenc (t.rVal.toNat : Int)) s' = .next t' ∧ t'.err = 0 ∧ t'.rByte = b &&& 0x03) ∧
  (∀ (b : Byte) (s s' : State), s'.rom = s.rom → RomIncreasing s.rom → ∃ t t', exec (.persdec b) s = .next t ∧
    exec (.persenc (t.rVal.toNat : Int)) s' = .next t' ∧ t'.err = 0 ∧ t'.rByte = b &&& 0x0F)

/-! ### The front end -/

/-- The answer to a transaction is the first that the transport still has to give. That the transport answers each
transaction is 60_exceptions.md R236 and 10_state.md R28; that its answers are a list, the next one first, is the model's
choice (assumption 6). -/
def Obligations.TransportAnswersInOrder : Prop :=
  ∀ (s : State) (a : Response) (as : List Response), s.responses = a :: as → nextResponse s = a

/-- Byte read of the register at `addr` (R78, R170, R171): on success it drives `ports` with `Holds`, given the byte
read; if the transport fails it ends with TransportError. -/
def ReadsByte (i : Instr) (cmd : Byte) (ports : List ResultPort) (Holds : Byte → State → Prop) : Prop :=
  ∀ s : State,
    ((nextResponse s).tOk = true → ∃ t, exec i s = .next t ∧ Transacts ⟨false, false, cmd, 0⟩ ports s t ∧
      Holds ((nextResponse s).tRdata.extractLsb' 0 8) t) ∧
    ((nextResponse s).tOk = false → ∃ t, exec i s = .next t ∧ TransportFails ⟨false, false, cmd, 0⟩ s t)

/-- The command byte of a word register: `0x80 | (KIND_AUTOINC << 5) | addr` (R178). -/
def wordCommand (rom : Rom) (addr : Byte) : Byte := 0x80 ||| (rom.kindAutoinc.setWidth 8 <<< 5) ||| addr

/-- Word read of the register at `addr`: the value passes through unchanged (R178, R54). -/
def ReadsWord (i : Instr) (addr : Byte) : Prop :=
  ∀ s : State,
    ((nextResponse s).tOk = true → ∃ t, exec i s = .next t ∧
      Transacts ⟨false, true, wordCommand s.rom addr, 0⟩ [.word] s t ∧ t.rWord = (nextResponse s).tRdata) ∧
    ((nextResponse s).tOk = false → ∃ t, exec i s = .next t ∧
      TransportFails ⟨false, true, wordCommand s.rom addr, 0⟩ s t)

/-- A write of `x`: it drives `ports` with `Holds` on success, and ends with TransportError if the transport fails. -/
def Writes (i : Instr) (x : Rom → Txn) (ports : List ResultPort) (Holds : State → Prop) (s : State) : Prop :=
  ((nextResponse s).tOk = true → ∃ t, exec i s = .next t ∧ Transacts (x s.rom) ports s t ∧ Holds t) ∧
  ((nextResponse s).tOk = false → ∃ t, exec i s = .next t ∧ TransportFails (x s.rom) s t)

/-- 44_register_ops.md R172, R184, R190: RDEN, RDCFG and RDSTATUS read the register's byte and drive its flags. -/
def Obligations.FlagReadsDriveFlags : Prop :=
  (∀ r : Request, r.op = 0x20#6 → decode r = .ok .rden) ∧
  (∀ r : Request, r.op = 0x2C#6 → decode r = .ok .rdcfg) ∧
  (∀ r : Request, r.op = 0x32#6 → decode r = .ok .rdstatus) ∧
  ReadsByte .rden 0x80 [.fv] (fun v t =>
    t.rFv.getLsbD 4 = v.getLsbD 6 ∧ t.rFv.getLsbD 3 = v.getLsbD 4 ∧ t.rFv.getLsbD 2 = v.getLsbD 3 ∧
    t.rFv.getLsbD 1 = v.getLsbD 1 ∧ t.rFv.getLsbD 0 = v.getLsbD 0) ∧
  ReadsByte .rdcfg 0x8D [.fv] (fun v t =>
    t.rFv.extractLsb' 2 3 = 0b000 ∧ t.rFv.getLsbD 1 = v.getLsbD 2 ∧ t.rFv.getLsbD 0 = v.getLsbD 1) ∧
  ReadsByte .rdstatus 0x93 [.fv] (fun v t =>
    t.rFv.extractLsb' 2 3 = 0b000 ∧ t.rFv.getLsbD 1 = v.getLsbD 4 ∧ t.rFv.getLsbD 0 = v.getLsbD 0)

/-- 44_register_ops.md R173, R185: WREN and WRCFG write the packed flags, every other bit 0. -/
def Obligations.FlagWritesWritePackedByte : Prop :=
  (∀ r : Request, r.op = 0x21#6 → decode r = .ok (.wren r.fv)) ∧
  (∀ r : Request, r.op = 0x2D#6 → decode r = .ok (.wrcfg r.fv)) ∧
  (∀ (fv : FlagVec) (s : State),
    Writes (.wren fv) (fun _ => ⟨true, false, 0x80, (enablePacked fv).setWidth 16⟩) [] (fun _ => True) s) ∧
  (∀ (fv : FlagVec) (s : State),
    Writes (.wrcfg fv) (fun _ => ⟨true, false, 0x8D,
      (if fv.getLsbD 1 then 0x0004 else 0) ||| (if fv.getLsbD 0 then 0x0002 else 0)⟩) [] (fun _ => True) s)

/-- 44_register_ops.md R174, R176: RDATIME and RDWTIME read the timing byte and drive the time it encodes; only RDWTIME
takes the request's long-wait choice. -/
def Obligations.TimeReadsDriveEncodedTime : Prop :=
  (∀ r : Request, r.op = 0x22#6 → decode r = .ok .rdatime) ∧
  (∀ r : Request, r.op = 0x24#6 → decode r = .ok (.rdwtime r.lng)) ∧
  ReadsByte .rdatime 0x81 [.ms] (fun v t => t.rMs.toNat = (256 - v.toNat) * 273) ∧
  (∀ lng : Bool, ReadsByte (.rdwtime lng) 0x83 [.ms]
    (fun v t => (t.rMs.toNat : Int) = (256 - (v.toNat : Int)) * stepOf lng))

/-- A write of a requested time (R175, R177): RangeError and no transaction out of range, else a byte write of the
quantized byte, driving it and the time it achieves. -/
def WritesTime (i : Instr) (cmd : Byte) (ms : Int) (lng : Bool) (s : State) : Prop :=
  (¬ TimeInRange ms lng → ∃ t, exec i s = .next t ∧ Rejects 1 s t) ∧
  (TimeInRange ms lng →
    Writes i (fun _ => ⟨true, false, cmd, BitVec.ofInt 16 (256 - ms.fdiv (stepOf lng))⟩) [.byte, .ms]
      (fun t => (t.rByte.toNat : Int) = 256 - ms.fdiv (stepOf lng) ∧
        (t.rMs.toNat : Int) = ms.fdiv (stepOf lng) * stepOf lng) s)

/-- 44_register_ops.md R175, R177. -/
def Obligations.TimeWritesQuantizeOrReject : Prop :=
  (∀ r : Request, r.op = 0x23#6 → decode r = .ok (.wratime r.ms.toInt)) ∧
  (∀ r : Request, r.op = 0x25#6 → decode r = .ok (.wrwtime r.ms.toInt r.lng)) ∧
  (∀ (ms : Int) (s : State), WritesTime (.wratime ms) 0x81 ms false s) ∧
  (∀ (ms : Int) (lng : Bool) (s : State), WritesTime (.wrwtime ms lng) 0x83 ms lng s)

/-- 44_register_ops.md R178, R180, R192, R194: the four word reads pass the value through unchanged. -/
def Obligations.WordReadsPassValueThrough : Prop :=
  (∀ r : Request, r.op = 0x26#6 → decode r = .ok .rdailt) ∧
  (∀ r : Request, r.op = 0x28#6 → decode r = .ok .rdaiht) ∧
  (∀ r : Request, r.op = 0x34#6 → decode r = .ok .rdc0) ∧
  (∀ r : Request, r.op = 0x36#6 → decode r = .ok .rdc1) ∧
  ReadsWord .rdailt 0x04 ∧ ReadsWord .rdaiht 0x06 ∧ ReadsWord .rdc0 0x14 ∧ ReadsWord .rdc1 0x16

/-- 44_register_ops.md R179, R181: the two word writes write the count as given, whatever it is. -/
def Obligations.WordWritesPassValueThrough : Prop :=
  (∀ r : Request, r.op = 0x27#6 → decode r = .ok (.wrailt r.w)) ∧
  (∀ r : Request, r.op = 0x29#6 → decode r = .ok (.wraiht r.w)) ∧
  (∀ (w : Word16) (s : State),
    Writes (.wrailt w) (fun rom => ⟨true, true, wordCommand rom 0x04, w⟩) [] (fun _ => True) s) ∧
  (∀ (w : Word16) (s : State),
    Writes (.wraiht w) (fun rom => ⟨true, true, wordCommand rom 0x06, w⟩) [] (fun _ => True) s)

/-- 44_register_ops.md R182, R186: RDPERS and RDGAIN mask the byte read to the table's index and drive the entry. -/
def Obligations.EnumReadsLookUpTable : Prop :=
  (∀ r : Request, r.op = 0x2A#6 → decode r = .ok .rdpers) ∧
  (∀ r : Request, r.op = 0x2E#6 → decode r = .ok .rdgain) ∧
  (∀ rom : Rom, ∀ s : State, s.rom = rom →
    ((nextResponse s).tOk = true → ∃ t, exec .rdpers s = .next t ∧ Transacts ⟨false, false, 0x8C, 0⟩ [.val] s t ∧
      (persCounts rom)[(nextResponse s).tRdata.toNat % 16]? = some t.rVal) ∧
    ((nextResponse s).tOk = false → ∃ t, exec .rdpers s = .next t ∧ TransportFails ⟨false, false, 0x8C, 0⟩ s t)) ∧
  ReadsByte .rdgain 0x8F [.val] (fun v t => [(1 : Byte), 8, 16, 120][v.toNat % 4]? = some t.rVal)

/-- 44_register_ops.md R183, R187: WRPERS and WRGAIN write the index of the value, upper bits 0, or raise
UnsupportedValueError with no transaction. -/
def Obligations.EnumWritesWriteIndexOrReject : Prop :=
  (∀ r : Request, r.op = 0x2B#6 → decode r = .ok (.wrpers r.val.toInt)) ∧
  (∀ r : Request, r.op = 0x2F#6 → decode r = .ok (.wrgain r.val.toInt)) ∧
  (∀ (val : Int) (s : State),
    (¬ IsPersCount s.rom val → ∃ t, exec (.wrpers val) s = .next t ∧ Rejects 2 s t) ∧
    (IsPersCount s.rom val → ∃ n < 16,
      ((persCounts s.rom)[n]?.map (fun e => (e.toNat : Int))) = some val ∧
      Writes (.wrpers val) (fun _ => ⟨true, false, 0x8C, BitVec.ofNat 16 n⟩) [] (fun _ => True) s)) ∧
  (∀ (val : Int) (s : State),
    (val ∉ [(1 : Int), 8, 16, 120] → ∃ t, exec (.wrgain val) s = .next t ∧ Rejects 2 s t) ∧
    (∀ n : Nat, [(1 : Int), 8, 16, 120][n]? = some val →
      Writes (.wrgain val) (fun _ => ⟨true, false, 0x8F, BitVec.ofNat 16 n⟩) [] (fun _ => True) s))

/-- 44_register_ops.md R188: RDID drives the raw byte. -/
def Obligations.RdidDrivesRawByte : Prop :=
  (∀ r : Request, r.op = 0x30#6 → decode r = .ok .rdid) ∧
  ReadsByte .rdid 0x92 [.byte] (fun v t => t.rByte = v)

/-- 44_register_ops.md R189, R191, R193, R195: a write to a read-only register raises ReadOnlyViolation, in every state,
and issues no transaction. -/
def Obligations.ReadOnlyWritesAreViolations : Prop :=
  (∀ r : Request, r.op = 0x31#6 → decode r = .ok .wrid) ∧
  (∀ r : Request, r.op = 0x33#6 → decode r = .ok .wrstatus) ∧
  (∀ r : Request, r.op = 0x35#6 → decode r = .ok .wrc0) ∧
  (∀ r : Request, r.op = 0x37#6 → decode r = .ok .wrc1) ∧
  (∀ s : State, (∃ t, exec .wrid s = .next t ∧ Rejects 3 s t) ∧ (∃ t, exec .wrstatus s = .next t ∧ Rejects 3 s t) ∧
    (∃ t, exec .wrc0 s = .next t ∧ Rejects 3 s t) ∧ (∃ t, exec .wrc1 s = .next t ∧ Rejects 3 s t))

/-- The read operation of each register of R78 with its address and kind; the command byte at the default
`KIND_AUTOINC`. -/
def commandByteTable : List (Instr × Byte × Bool × Byte) :=
  [(.rden, 0x00, false, 0x80), (.rdatime, 0x01, false, 0x81), (.rdwtime false, 0x03, false, 0x83),
   (.rdailt, 0x04, true, 0xA4), (.rdaiht, 0x06, true, 0xA6), (.rdpers, 0x0C, false, 0x8C),
   (.rdcfg, 0x0D, false, 0x8D), (.rdgain, 0x0F, false, 0x8F), (.rdid, 0x12, false, 0x92),
   (.rdstatus, 0x13, false, 0x93), (.rdc0, 0x14, true, 0xB4), (.rdc1, 0x16, true, 0xB6)]

/-- 30_encoding.md R78: the command byte of every register, under any `KIND_AUTOINC` and under the default. -/
def Obligations.CommandBytesOfTheMap : Prop :=
  ∀ row ∈ commandByteTable, ∀ s : State, ∃ t, exec row.1 s = .next t ∧ t.txValid = true ∧
    t.txCmd = 0x80 ||| ((if row.2.2.1 then s.rom.kindAutoinc else 0b00).setWidth 8 <<< 5) ||| row.2.1 ∧
    (s.rom.kindAutoinc = 0b01 → t.txCmd = row.2.2.2)

/-! ### The whole machine -/

/-- 44_register_ops.md R170, 20_memory.md R57: a step issues at most one transaction. -/
def Obligations.AtMostOneTransactionPerStep : Prop :=
  ∀ s t : State, step s = .next t → NoTransaction s t ∨ ∃ x, OneTransaction x s t

/-- 20_memory.md R57: the order of transactions is the order of requests. A run of k steps takes the host's first k moves
in order, and the transactions it adds to the record are, move after move, those of these moves: one of each request that
passes its checks, and none of any other. -/
def Obligations.TransactionsFollowRequestOrder : Prop :=
  ∀ (k : Nat) (s t : State), Sys2Proof.core.run k s = .next t →
    ∃ asked : List (List Txn), t.host = s.host.drop k ∧ t.issued = s.issued ++ asked.flatten ∧
      List.Forall₂ (Serves s.rom) (s.host.take k) asked

/-- 30_encoding.md R72: a primitive operation (`op[5] = 0`) issues no transaction, whatever its operands and however it
ends. -/
def Obligations.PrimitivesIssueNoTransaction : Prop :=
  ∀ (s : State) (r : Request) (rest : List HostMove), s.host = .present r :: rest → r.op.getLsbD 5 = false →
    ∃ t, step s = .next t ∧ NoTransaction s t

/-- 60_exceptions.md R228, R221: a validation error leaves the device untouched; TransportError comes with the
transaction that failed; a front-end request that succeeds has issued its one transaction. -/
def Obligations.DescriptorMatchesError : Prop :=
  ∀ (s : State) (r : Request) (rest : List HostMove), s.host = .present r :: rest →
    ∃ t, step s = .next t ∧
      (t.err ∈ [(1 : BitVec 3), 2, 3, 5] → NoTransaction s t) ∧
      (t.err = 4 → ∃ x, OneTransaction x s t) ∧
      (t.err = 0 → r.op.getLsbD 5 = true → ∃ x, OneTransaction x s t)

/-- 60_exceptions.md R227, R222 to R226: every request ends in exactly the error that the first failing check decides. -/
def Obligations.FirstFailingCheckDecidesErr : Prop :=
  ∀ (s : State) (r : Request) (rest : List HostMove), s.host = .present r :: rest →
    ∃ t, step s = .next t ∧ EndsWith s.rom r (nextResponse s).tOk t.err

/-- A port that an operation does not drive, and after an error every result port, has no defined value (10_state.md R29).
That it shows an opaque value indexed by `draws` is the model's choice (assumption 4). -/
def Obligations.UndrivenPortsAreFree : Prop :=
  ∀ (i : Instr) (s : State), ∃ t, exec i s = .next t ∧
    OnlyDrives (if t.err = 0 then drives i else []) s t

/-- 10_state.md R20, R23: equal operands and equal transport answers give equal outcomes, whatever came before: the
error, every result port the operation drives, and the transaction issued. The two states share only the ROM. -/
def Obligations.OutcomeDependsOnRequestAndAnswerAlone : Prop :=
  ∀ (i : Instr) (s s' : State), s.rom = s'.rom → nextResponse s = nextResponse s' →
    ∃ t t', exec i s = .next t ∧ exec i s' = .next t' ∧ t.err = t'.err ∧
      (t.err = 0 →
        (.cmd ∈ drives i → t.rCmd = t'.rCmd) ∧ (.byte ∈ drives i → t.rByte = t'.rByte) ∧
        (.fv ∈ drives i → t.rFv = t'.rFv) ∧ (.ms ∈ drives i → t.rMs = t'.rMs) ∧
        (.val ∈ drives i → t.rVal = t'.rVal) ∧ (.word ∈ drives i → t.rWord = t'.rWord)) ∧
      ((NoTransaction s t ∧ NoTransaction s' t') ∨ ∃ x, OneTransaction x s t ∧ OneTransaction x s' t')

/-- 10_state.md R24, 43_enum_tables.md R157: no step changes the ROM, so an increasing table stays so. -/
def Obligations.RomNeverChanges : Prop :=
  ∀ s t : State, step s = .next t → t.rom = s.rom ∧ (RomIncreasing s.rom → RomIncreasing t.rom)

/-- 10_state.md R30, 40_command_codec.md R102, 70_reset_and_hazards.md R257, 60_exceptions.md R224: every step keeps the
bus safe, from every state in which it is. -/
def Obligations.EveryStepKeepsBusSafe : Prop :=
  ∀ s t : State, BusSafe s → step s = .next t → BusSafe t

/-- The bus is safe at reset. -/
def Obligations.ResetIsBusSafe : Prop := BusSafe State.reset

/-- 30_encoding.md R71, 44_register_ops.md R170: no transaction uses the special kind, where its code is not that of
another kind. -/
def Obligations.SpecialKindIsNeverUsed : Prop :=
  ∀ s t : State, s.rom.kindSpecial ≠ 0b00 → s.rom.kindSpecial ≠ s.rom.kindAutoinc → step s = .next t →
    t.txValid = true → t.txCmd.extractLsb' 5 2 ≠ s.rom.kindSpecial

/-- 10_state.md R28, D25: a byte read ignores `t_rdata[15:8]`. Two answers that agree in the low byte give every such
read the same outcome. The answer is the head of the model's list (assumption 6). -/
def Obligations.ByteReadsIgnoreHighByte : Prop :=
  ∀ (i : Instr) (s : State) (ok : Bool) (v v' : Word16) (as : List Response),
    i ∈ [Instr.rden, .rdatime, .rdwtime false, .rdwtime true, .rdpers, .rdcfg, .rdgain, .rdid, .rdstatus] →
    v.extractLsb' 0 8 = v'.extractLsb' 0 8 →
    exec i { s with responses := ⟨ok, v⟩ :: as } = exec i { s with responses := ⟨ok, v'⟩ :: as }
end

