-- ==== Sys2Proof/Laws/State.lean ====
section
/-! SUPPORT. What each update of the state leaves in each field: one lemma per field per update, so that no later proof
unfolds a record update. -/

namespace Sys2Proof.Machine

/-! ### `withdraw` -/

@[simp] theorem withdraw_host (s : State) : (withdraw s).host = s.host := rfl
@[simp] theorem withdraw_responses (s : State) : (withdraw s).responses = s.responses := rfl
@[simp] theorem withdraw_rom (s : State) : (withdraw s).rom = s.rom := rfl
@[simp] theorem withdraw_err (s : State) : (withdraw s).err = Config.undrivenErr s.draws := rfl
@[simp] theorem withdraw_rCmd (s : State) : (withdraw s).rCmd = Config.undrivenCmd s.draws := rfl
@[simp] theorem withdraw_rByte (s : State) : (withdraw s).rByte = Config.undrivenByte s.draws := rfl
@[simp] theorem withdraw_rFv (s : State) : (withdraw s).rFv = Config.undrivenFv s.draws := rfl
@[simp] theorem withdraw_rMs (s : State) : (withdraw s).rMs = Config.undrivenMs s.draws := rfl
@[simp] theorem withdraw_rVal (s : State) : (withdraw s).rVal = Config.undrivenVal s.draws := rfl
@[simp] theorem withdraw_rWord (s : State) : (withdraw s).rWord = Config.undrivenWord s.draws := rfl
@[simp] theorem withdraw_txValid (s : State) : (withdraw s).txValid = false := rfl
@[simp] theorem withdraw_txWrite (s : State) : (withdraw s).txWrite = Config.undrivenTxWrite s.draws := rfl
@[simp] theorem withdraw_txWord (s : State) : (withdraw s).txWord = Config.undrivenTxWord s.draws := rfl
@[simp] theorem withdraw_txCmd (s : State) : (withdraw s).txCmd = Config.undrivenTxCmd s.draws := rfl
@[simp] theorem withdraw_txWdata (s : State) : (withdraw s).txWdata = Config.undrivenTxWdata s.draws := rfl
@[simp] theorem withdraw_issued (s : State) : (withdraw s).issued = s.issued := rfl
@[simp] theorem withdraw_draws (s : State) : (withdraw s).draws = s.draws + 1 := rfl

/-! ### `raise` -/

@[simp] theorem raise_host (e : Err) (s : State) : (raise e s).host = s.host := rfl
@[simp] theorem raise_responses (e : Err) (s : State) : (raise e s).responses = s.responses := rfl
@[simp] theorem raise_rom (e : Err) (s : State) : (raise e s).rom = s.rom := rfl
@[simp] theorem raise_err (e : Err) (s : State) : (raise e s).err = e.code := rfl
@[simp] theorem raise_rCmd (e : Err) (s : State) : (raise e s).rCmd = s.rCmd := rfl
@[simp] theorem raise_rByte (e : Err) (s : State) : (raise e s).rByte = s.rByte := rfl
@[simp] theorem raise_rFv (e : Err) (s : State) : (raise e s).rFv = s.rFv := rfl
@[simp] theorem raise_rMs (e : Err) (s : State) : (raise e s).rMs = s.rMs := rfl
@[simp] theorem raise_rVal (e : Err) (s : State) : (raise e s).rVal = s.rVal := rfl
@[simp] theorem raise_rWord (e : Err) (s : State) : (raise e s).rWord = s.rWord := rfl
@[simp] theorem raise_txValid (e : Err) (s : State) : (raise e s).txValid = s.txValid := rfl
@[simp] theorem raise_txWrite (e : Err) (s : State) : (raise e s).txWrite = s.txWrite := rfl
@[simp] theorem raise_txWord (e : Err) (s : State) : (raise e s).txWord = s.txWord := rfl
@[simp] theorem raise_txCmd (e : Err) (s : State) : (raise e s).txCmd = s.txCmd := rfl
@[simp] theorem raise_txWdata (e : Err) (s : State) : (raise e s).txWdata = s.txWdata := rfl
@[simp] theorem raise_issued (e : Err) (s : State) : (raise e s).issued = s.issued := rfl
@[simp] theorem raise_draws (e : Err) (s : State) : (raise e s).draws = s.draws := rfl

/-! ### `succeed` -/

@[simp] theorem succeed_host (r : Results) (s : State) : (succeed r s).host = s.host := rfl
@[simp] theorem succeed_responses (r : Results) (s : State) : (succeed r s).responses = s.responses := rfl
@[simp] theorem succeed_rom (r : Results) (s : State) : (succeed r s).rom = s.rom := rfl
@[simp] theorem succeed_err (r : Results) (s : State) : (succeed r s).err = 0 := rfl
@[simp] theorem succeed_rCmd (r : Results) (s : State) : (succeed r s).rCmd = r.cmd.getD s.rCmd := rfl
@[simp] theorem succeed_rByte (r : Results) (s : State) : (succeed r s).rByte = r.byte.getD s.rByte := rfl
@[simp] theorem succeed_rFv (r : Results) (s : State) : (succeed r s).rFv = r.fv.getD s.rFv := rfl
@[simp] theorem succeed_rMs (r : Results) (s : State) : (succeed r s).rMs = r.ms.getD s.rMs := rfl
@[simp] theorem succeed_rVal (r : Results) (s : State) : (succeed r s).rVal = r.val.getD s.rVal := rfl
@[simp] theorem succeed_rWord (r : Results) (s : State) : (succeed r s).rWord = r.word.getD s.rWord := rfl
@[simp] theorem succeed_txValid (r : Results) (s : State) : (succeed r s).txValid = s.txValid := rfl
@[simp] theorem succeed_txWrite (r : Results) (s : State) : (succeed r s).txWrite = s.txWrite := rfl
@[simp] theorem succeed_txWord (r : Results) (s : State) : (succeed r s).txWord = s.txWord := rfl
@[simp] theorem succeed_txCmd (r : Results) (s : State) : (succeed r s).txCmd = s.txCmd := rfl
@[simp] theorem succeed_txWdata (r : Results) (s : State) : (succeed r s).txWdata = s.txWdata := rfl
@[simp] theorem succeed_issued (r : Results) (s : State) : (succeed r s).issued = s.issued := rfl
@[simp] theorem succeed_draws (r : Results) (s : State) : (succeed r s).draws = s.draws := rfl

/-! ### `issue` -/

@[simp] theorem issue_host (x : Txn) (s : State) : (issue x s).host = s.host := rfl
@[simp] theorem issue_responses (x : Txn) (s : State) : (issue x s).responses = s.responses.tail := rfl
@[simp] theorem issue_rom (x : Txn) (s : State) : (issue x s).rom = s.rom := rfl
@[simp] theorem issue_err (x : Txn) (s : State) : (issue x s).err = s.err := rfl
@[simp] theorem issue_rCmd (x : Txn) (s : State) : (issue x s).rCmd = s.rCmd := rfl
@[simp] theorem issue_rByte (x : Txn) (s : State) : (issue x s).rByte = s.rByte := rfl
@[simp] theorem issue_rFv (x : Txn) (s : State) : (issue x s).rFv = s.rFv := rfl
@[simp] theorem issue_rMs (x : Txn) (s : State) : (issue x s).rMs = s.rMs := rfl
@[simp] theorem issue_rVal (x : Txn) (s : State) : (issue x s).rVal = s.rVal := rfl
@[simp] theorem issue_rWord (x : Txn) (s : State) : (issue x s).rWord = s.rWord := rfl
@[simp] theorem issue_txValid (x : Txn) (s : State) : (issue x s).txValid = true := rfl
@[simp] theorem issue_txWrite (x : Txn) (s : State) : (issue x s).txWrite = x.write := rfl
@[simp] theorem issue_txWord (x : Txn) (s : State) : (issue x s).txWord = x.word := rfl
@[simp] theorem issue_txCmd (x : Txn) (s : State) : (issue x s).txCmd = x.cmd := rfl
@[simp] theorem issue_txWdata (x : Txn) (s : State) : (issue x s).txWdata = x.wdata := rfl
@[simp] theorem issue_issued (x : Txn) (s : State) : (issue x s).issued = s.issued ++ [x] := rfl
@[simp] theorem issue_draws (x : Txn) (s : State) : (issue x s).draws = s.draws := rfl

end Sys2Proof.Machine
end

