-- ==== Sys2Proof/Laws/Ops.lean ====
section
/-! SUPPORT. For each shared operation, once, everything it can do: what it drives, what it asks of the transport and what
it leaves alone, in the terms of `Sys2Proof/Safety.lean`. -/

namespace Sys2Proof.Machine

/-- The results name no port outside `ports`. -/
def Results.Within (r : Results) (ports : List ResultPort) : Prop :=
  (.cmd ∉ ports → r.cmd = none) ∧ (.byte ∉ ports → r.byte = none) ∧ (.fv ∉ ports → r.fv = none) ∧
  (.ms ∉ ports → r.ms = none) ∧ (.val ∉ ports → r.val = none) ∧ (.word ∉ ports → r.word = none)

/-! ### The host's next move -/

theorem nextMove_nil {s : State} (h : s.host = []) : nextMove s = none := by
  simp [nextMove, h]

theorem nextMove_cons {s : State} {m : HostMove} {rest : List HostMove} (h : s.host = m :: rest) :
    nextMove s = some (m, { s with host := rest }) := by
  simp [nextMove, h]

/-! ### The transport's answer -/

@[simp] theorem nextResponse_of_responses (s : State) (a : Response) (as : List Response) :
    nextResponse { s with responses := a :: as } = a := rfl

/-- The answer depends on the transport's list and the number of the draw alone. -/
theorem nextResponse_congr {s s' : State} (h : s.responses = s'.responses) (hd : s.draws = s'.draws) :
    nextResponse s = nextResponse s' := by
  simp [nextResponse, h, hd]

/-! ### Ports not driven -/

theorem withdraw_onlyDrives (ports : List ResultPort) (s : State) : OnlyDrives ports s (withdraw s) := by
  simp [OnlyDrives]

/-- `withdraw` drives nothing, `err` and the descriptor among it. -/
theorem withdraw_nothingDriven (s : State) : NothingDriven s.draws (withdraw s) := by
  simp [NothingDriven]

theorem raise_onlyDrives {ports : List ResultPort} {s t : State} (e : Err) (h : OnlyDrives ports s t) :
    OnlyDrives ports s (raise e t) := h

theorem issue_onlyDrives {ports : List ResultPort} {s t : State} (x : Txn) (h : OnlyDrives ports s t) :
    OnlyDrives ports s (issue x t) := h

theorem succeed_onlyDrives {ports : List ResultPort} {s t : State} {r : Results} (hr : r.Within ports)
    (h : OnlyDrives ports s t) : OnlyDrives ports s (succeed r t) := by
  obtain ⟨r1, r2, r3, r4, r5, r6⟩ := hr
  obtain ⟨h1, h2, h3, h4, h5, h6⟩ := h
  refine ⟨fun p => ?_, fun p => ?_, fun p => ?_, fun p => ?_, fun p => ?_, fun p => ?_⟩
  · simp [r1 p, h1 p]
  · simp [r2 p, h2 p]
  · simp [r3 p, h3 p]
  · simp [r4 p, h4 p]
  · simp [r5 p, h5 p]
  · simp [r6 p, h6 p]

/-! ### Requests without a transaction -/

/-- `compute` succeeds, drives at most the ports of its results, and issues nothing. -/
theorem compute_computes {r : Results} {ports : List ResultPort} (hr : r.Within ports) (s : State) :
    Computes ports s (compute r s) :=
  ⟨rfl, ⟨rfl, rfl, rfl⟩, succeed_onlyDrives hr (withdraw_onlyDrives ports s), rfl, rfl⟩

/-- `reject` ends with the error's code, drives nothing else, and issues nothing. -/
theorem reject_rejects (e : Err) (s : State) : Rejects e.code s (reject e s) :=
  ⟨rfl, ⟨rfl, rfl, rfl⟩, raise_onlyDrives e (withdraw_onlyDrives [] s), rfl, rfl⟩

/-! ### Requests with a transaction -/

/-- The transport answers: `transact` succeeds with the results for the value read. -/
theorem transact_of_ok (x : Txn) (results : Word16 → Results) {s : State} (h : (nextResponse s).tOk = true) :
    transact x results s = succeed (results (nextResponse s).tRdata) (issue x (withdraw s)) := by
  simp [transact, h]

/-- The transport fails: `transact` ends with TransportError. -/
theorem transact_of_failed (x : Txn) (results : Word16 → Results) {s : State} (h : (nextResponse s).tOk = false) :
    transact x results s = raise .transportError (issue x (withdraw s)) := by
  simp [transact, h]

/-- Either way exactly one transaction is issued. -/
theorem transact_oneTransaction (x : Txn) (results : Word16 → Results) (s : State) :
    OneTransaction x s (transact x results s) := by
  cases h : (nextResponse s).tOk
  · rw [transact_of_failed x results h]
    simp [OneTransaction]
  · rw [transact_of_ok x results h]
    simp [OneTransaction]

/-- Either way the ROM and the host's later moves stay. -/
theorem transact_kept (x : Txn) (results : Word16 → Results) (s : State) : Kept s (transact x results s) := by
  cases h : (nextResponse s).tOk
  · rw [transact_of_failed x results h]
    exact ⟨rfl, rfl⟩
  · rw [transact_of_ok x results h]
    exact ⟨rfl, rfl⟩

theorem transact_transacts {x : Txn} {results : Word16 → Results} {ports : List ResultPort} {s : State}
    (hr : ∀ v, (results v).Within ports) (h : (nextResponse s).tOk = true) :
    Transacts x ports s (transact x results s) := by
  refine ⟨?_, transact_oneTransaction x results s, ?_, transact_kept x results s⟩
  · simp [transact_of_ok x results h]
  · rw [transact_of_ok x results h]
    exact succeed_onlyDrives (hr _) (issue_onlyDrives x (withdraw_onlyDrives ports s))

theorem transact_fails {x : Txn} {results : Word16 → Results} {s : State}
    (h : (nextResponse s).tOk = false) : TransportFails x s (transact x results s) := by
  refine ⟨?_, transact_oneTransaction x results s, ?_, transact_kept x results s⟩
  · simp [transact_of_failed x results h, Err.code]
  · rw [transact_of_failed x results h]
    exact raise_onlyDrives .transportError (issue_onlyDrives x (withdraw_onlyDrives [] s))

end Sys2Proof.Machine
end

