-- ==== Sys2Proof/Laws/PerInstr.lean ====
section
/-! SUPPORT. Laws of every instruction as syntax, one lemma per constructor. -/

namespace Sys2Proof.Laws

open Sys2Proof Sys2Proof.Machine

/-- The instruction's code is one the block executes (30_encoding.md R73 to R75), the same whatever the other ports
carry (R72, R81). -/
def OpcodeRow.Statement (i : Instr) : Prop :=
  ∃ code : BitVec 6, code ∉ reservedOps ∧ ∀ base : Request, (encodeOver base i).op = code

theorem OpcodeRow.cmdenc (kind : BitVec 2) (addr : BitVec 5) : OpcodeRow.Statement (.cmdenc kind addr) := ⟨0x00, by decide, fun _ => rfl⟩
theorem OpcodeRow.endec (b : Byte) : OpcodeRow.Statement (.endec b) := ⟨0x01, by decide, fun _ => rfl⟩
theorem OpcodeRow.enenc (fv : FlagVec) : OpcodeRow.Statement (.enenc fv) := ⟨0x02, by decide, fun _ => rfl⟩
theorem OpcodeRow.cfgdec (b : Byte) : OpcodeRow.Statement (.cfgdec b) := ⟨0x03, by decide, fun _ => rfl⟩
theorem OpcodeRow.cfgenc (fv : FlagVec) : OpcodeRow.Statement (.cfgenc fv) := ⟨0x04, by decide, fun _ => rfl⟩
theorem OpcodeRow.stdec (b : Byte) : OpcodeRow.Statement (.stdec b) := ⟨0x05, by decide, fun _ => rfl⟩
theorem OpcodeRow.t2ms (b : Byte) (lng : Bool) : OpcodeRow.Statement (.t2ms b lng) := ⟨0x08, by decide, fun _ => rfl⟩
theorem OpcodeRow.ms2t (ms : Int) (lng : Bool) : OpcodeRow.Statement (.ms2t ms lng) := ⟨0x09, by decide, fun _ => rfl⟩
theorem OpcodeRow.persdec (b : Byte) : OpcodeRow.Statement (.persdec b) := ⟨0x0C, by decide, fun _ => rfl⟩
theorem OpcodeRow.persenc (val : Int) : OpcodeRow.Statement (.persenc val) := ⟨0x0D, by decide, fun _ => rfl⟩
theorem OpcodeRow.gaindec (b : Byte) : OpcodeRow.Statement (.gaindec b) := ⟨0x0E, by decide, fun _ => rfl⟩
theorem OpcodeRow.gainenc (val : Int) : OpcodeRow.Statement (.gainenc val) := ⟨0x0F, by decide, fun _ => rfl⟩
theorem OpcodeRow.rden : OpcodeRow.Statement .rden := ⟨0x20, by decide, fun _ => rfl⟩
theorem OpcodeRow.wren (fv : FlagVec) : OpcodeRow.Statement (.wren fv) := ⟨0x21, by decide, fun _ => rfl⟩
theorem OpcodeRow.rdatime : OpcodeRow.Statement .rdatime := ⟨0x22, by decide, fun _ => rfl⟩
theorem OpcodeRow.wratime (ms : Int) : OpcodeRow.Statement (.wratime ms) := ⟨0x23, by decide, fun _ => rfl⟩
theorem OpcodeRow.rdwtime (lng : Bool) : OpcodeRow.Statement (.rdwtime lng) := ⟨0x24, by decide, fun _ => rfl⟩
theorem OpcodeRow.wrwtime (ms : Int) (lng : Bool) : OpcodeRow.Statement (.wrwtime ms lng) := ⟨0x25, by decide, fun _ => rfl⟩
theorem OpcodeRow.rdailt : OpcodeRow.Statement .rdailt := ⟨0x26, by decide, fun _ => rfl⟩
theorem OpcodeRow.wrailt (w : Word16) : OpcodeRow.Statement (.wrailt w) := ⟨0x27, by decide, fun _ => rfl⟩
theorem OpcodeRow.rdaiht : OpcodeRow.Statement .rdaiht := ⟨0x28, by decide, fun _ => rfl⟩
theorem OpcodeRow.wraiht (w : Word16) : OpcodeRow.Statement (.wraiht w) := ⟨0x29, by decide, fun _ => rfl⟩
theorem OpcodeRow.rdpers : OpcodeRow.Statement .rdpers := ⟨0x2A, by decide, fun _ => rfl⟩
theorem OpcodeRow.wrpers (val : Int) : OpcodeRow.Statement (.wrpers val) := ⟨0x2B, by decide, fun _ => rfl⟩
theorem OpcodeRow.rdcfg : OpcodeRow.Statement .rdcfg := ⟨0x2C, by decide, fun _ => rfl⟩
theorem OpcodeRow.wrcfg (fv : FlagVec) : OpcodeRow.Statement (.wrcfg fv) := ⟨0x2D, by decide, fun _ => rfl⟩
theorem OpcodeRow.rdgain : OpcodeRow.Statement .rdgain := ⟨0x2E, by decide, fun _ => rfl⟩
theorem OpcodeRow.wrgain (val : Int) : OpcodeRow.Statement (.wrgain val) := ⟨0x2F, by decide, fun _ => rfl⟩
theorem OpcodeRow.rdid : OpcodeRow.Statement .rdid := ⟨0x30, by decide, fun _ => rfl⟩
theorem OpcodeRow.wrid : OpcodeRow.Statement .wrid := ⟨0x31, by decide, fun _ => rfl⟩
theorem OpcodeRow.rdstatus : OpcodeRow.Statement .rdstatus := ⟨0x32, by decide, fun _ => rfl⟩
theorem OpcodeRow.wrstatus : OpcodeRow.Statement .wrstatus := ⟨0x33, by decide, fun _ => rfl⟩
theorem OpcodeRow.rdc0 : OpcodeRow.Statement .rdc0 := ⟨0x34, by decide, fun _ => rfl⟩
theorem OpcodeRow.wrc0 : OpcodeRow.Statement .wrc0 := ⟨0x35, by decide, fun _ => rfl⟩
theorem OpcodeRow.rdc1 : OpcodeRow.Statement .rdc1 := ⟨0x36, by decide, fun _ => rfl⟩
theorem OpcodeRow.wrc1 : OpcodeRow.Statement .wrc1 := ⟨0x37, by decide, fun _ => rfl⟩

end Sys2Proof.Laws
end

