-- ==== Sys2Proof/Laws/Units.lean ====
section
/-! SUPPORT. The laws of the pure units: one specification lemma per function, in the arithmetic of the rules. -/

namespace Sys2Proof.Machine

/-! ### Signed ports (R77) -/

theorem readSigned_fitsPort (p : BitVec 32) : fitsPort (readSigned p) = true := by
  have h := BitVec.toInt_lt (x := p)
  have h' := BitVec.le_toInt (x := p)
  simp only [fitsPort, readSigned, Bool.and_eq_true]
  exact ⟨decide_eq_true (by omega), decide_eq_true (by omega)⟩

theorem readSigned_writeSigned {v : Int} (h : fitsPort v = true) : readSigned (writeSigned v) = v := by
  simp only [fitsPort, Bool.and_eq_true, decide_eq_true_eq] at h
  rw [readSigned, writeSigned, BitVec.toInt_ofInt, Int.bmod_eq_of_le] <;> omega

theorem writeSigned_readSigned (p : BitVec 32) : writeSigned (readSigned p) = p := by
  simp [readSigned, writeSigned]

/-! ### Timing (R130 to R133) -/

theorem stepUnits_eq (lng : Bool) : (stepUnits lng : Int) = stepOf lng := by
  cases lng <;> rfl

/-- The time a byte encodes, as an integer (R131). -/
theorem t2ms_toNat (b : Byte) (lng : Bool) : ((t2ms b lng).toNat : Int) = (256 - (b.toNat : Int)) * stepOf lng := by
  have hb := b.isLt
  cases lng <;> simp only [t2ms, stepUnits, tUnit, longMult, stepOf, BitVec.toNat_ofNat] <;> simp <;> omega

/-- A request in range quantizes to the byte and time of R132. -/
theorem ms2t_of_inRange {ms : Int} {lng : Bool} (h : TimeInRange ms lng) :
    ∃ b achieved, ms2t ms lng = some (b, achieved) ∧ (b.toNat : Int) = 256 - ms / stepOf lng ∧
      (achieved.toNat : Int) = ms / stepOf lng * stepOf lng := by
  cases lng
  all_goals
    simp only [TimeInRange, stepOf, Bool.false_eq_true, if_false, if_true] at h ⊢
    refine ⟨_, _, by simp only [ms2t, stepUnits_eq, stepOf, Bool.false_eq_true, if_false, if_true]; rw [if_neg (by omega)], ?_, ?_⟩
    · rw [BitVec.toNat_ofInt, Int.toNat_of_nonneg (by omega)]; norm_num; omega
    · rw [BitVec.toNat_ofInt, Int.toNat_of_nonneg (by omega)]; norm_num; omega

/-- A request out of range does not quantize to a byte (R133). -/
theorem ms2t_of_not_inRange {ms : Int} {lng : Bool} (h : ¬ TimeInRange ms lng) : ms2t ms lng = none := by
  cases lng
  all_goals
    simp only [TimeInRange, stepOf, Bool.false_eq_true, if_false, if_true] at h
    simp only [ms2t, stepUnits_eq, stepOf, Bool.false_eq_true, if_false, if_true]
    rw [if_pos (by omega)]

/-! ### Tables (R150 to R156) -/

theorem persTable_length (rom : Rom) : (persTable rom).length = 16 := by
  simp [persTable]

/-- A value in the table has an index, and the raw field is the first (R153, R155). -/
theorem tableEncode_of_mem {table : List Byte} {v : Int} (h : ∃ e ∈ table, (e.toNat : Int) = v) :
    ∃ n, n < table.length ∧ tableEncode table v = some (BitVec.ofNat 8 n) ∧
      table[n]?.map (fun e => (e.toNat : Int)) = some v := by
  obtain ⟨e, he, hv⟩ := h
  cases hi : table.findIdx? (fun e => decide ((e.toNat : Int) = v)) with
  | none => simp [List.findIdx?_eq_none_iff] at hi; exact absurd hv (hi e he)
  | some n =>
    obtain ⟨hn, hp, -⟩ := List.findIdx?_eq_some_iff_getElem.mp hi
    refine ⟨n, hn, by simp [tableEncode, hi], ?_⟩
    simpa [List.getElem?_eq_getElem hn] using hp

/-- A value outside the table has no raw field. -/
theorem tableEncode_of_not_mem {table : List Byte} {v : Int} (h : ¬ ∃ e ∈ table, (e.toNat : Int) = v) :
    tableEncode table v = none := by
  simp only [tableEncode, Option.map_eq_none_iff, List.findIdx?_eq_none_iff, decide_eq_false_iff_not]
  exact fun e he hv => h ⟨e, he, hv⟩

/-- Lookup at an index in the table gives its entry. -/
theorem tableDecode_eq {table : List Byte} {n : Nat} (h : n < table.length) :
    table[n]? = some (tableDecode table n) := by
  simp [tableDecode, List.getD_eq_getElem?_getD, List.getElem?_eq_getElem h]

end Sys2Proof.Machine
end

