-- ==== Sys2Proof/Tests/Slice0.lean ====
section
/-! SUPPORT. Tests. Expected results come from the spec: the encodings of 30_encoding.md and the vectors of
95_test_vectors.md, named at each test. Then one witness per statement of Certificates/Slice0/Obligations.lean that has
hypotheses: a concrete state and operands that meet all of them together. -/

namespace Sys2Proof.Tests

open Sys2Proof Sys2Proof.Machine

/-- The state after reset with these moves of the host and answers of the transport to come. -/
def ready (host : List HostMove) (responses : List Response) : State :=
  { State.reset with host := host, responses := responses }

/-- Present one request and read a field of the state after one step. -/
def after {α : Type} (i : Instr) (responses : List Response) (f : State → α) : Option α :=
  match step (ready [.present (encode i)] responses) with
  | .next t => some (f t)
  | _ => none

/-- `err` and the transactions after one step. -/
def ending (t : State) : BitVec 3 × List Txn := (t.err, t.issued)

/-- The transport's answers `t_ok = 1` with a value, and `t_ok = 0`. -/
def gives (v : Word16) : List Response := [⟨true, v⟩]
def fails : List Response := [⟨false, 0⟩]

/-- Transactions as 95_test_vectors.md writes them: (W, 1, cmd, data), (R, 1, cmd, —), (W, 2, …), (R, 2, …). -/
def w1 (cmd : Byte) (v : Word16) : Txn := ⟨true, false, cmd, v⟩
def r1 (cmd : Byte) : Txn := ⟨false, false, cmd, 0⟩
def w2 (cmd : Byte) (v : Word16) : Txn := ⟨true, true, cmd, v⟩
def r2 (cmd : Byte) : Txn := ⟨false, true, cmd, 0⟩

/-! ### WellFormed refuses an operand its port cannot carry -/

theorem test_wf_ms2t : (Instr.ms2t 2147483648 false).wellFormed = false := by decide
theorem test_wf_wratime : (Instr.wratime (-2147483649)).wellFormed = false := by decide
theorem test_wf_wrwtime : (Instr.wrwtime 2147483648 true).wellFormed = false := by decide
theorem test_wf_persenc : (Instr.persenc (-2147483649)).wellFormed = false := by decide
theorem test_wf_gainenc : (Instr.gainenc 2147483648).wellFormed = false := by decide
theorem test_wf_wrpers : (Instr.wrpers 2147483648).wellFormed = false := by decide
theorem test_wf_wrgain : (Instr.wrgain (-2147483649)).wellFormed = false := by decide
theorem test_wf_edges : (Instr.ms2t 2147483647 false).wellFormed && (Instr.persenc (-2147483648)).wellFormed := by decide

/-! ### Decoding: each code written out from R73 and R74, with operands from R76 and R77 -/

/-- A request whose every operand port carries something: fv 10110, b 0xA5, lng 1, ms −2, val 5, w 0x1234. -/
def full (op : BitVec 6) : Request :=
  { op := op, kind := 0b10, addr := 0x0D, fv := 0b10110, b := 0xA5, lng := true, ms := 0xFFFFFFFE, val := 5, w := 0x1234 }

theorem test_decode_primitives :
    [0b000000, 0b000001, 0b000010, 0b000011, 0b000100, 0b000101, 0b001000, 0b001001, 0b001100, 0b001101, 0b001110,
      0b001111].map (fun op => (decode (full op)).toOption) =
    [some (.cmdenc 0b10 0x0D), some (.endec 0xA5), some (.enenc 0b10110), some (.cfgdec 0xA5), some (.cfgenc 0b10110),
      some (.stdec 0xA5), some (.t2ms 0xA5 true), some (.ms2t (-2) true), some (.persdec 0xA5), some (.persenc 5),
      some (.gaindec 0xA5), some (.gainenc 5)] := by decide

theorem test_decode_front_end_low :
    [0b100000, 0b100001, 0b100010, 0b100011, 0b100100, 0b100101, 0b100110, 0b100111, 0b101000, 0b101001, 0b101010,
      0b101011].map (fun op => (decode (full op)).toOption) =
    [some .rden, some (.wren 0b10110), some .rdatime, some (.wratime (-2)), some (.rdwtime true),
      some (.wrwtime (-2) true), some .rdailt, some (.wrailt 0x1234), some .rdaiht, some (.wraiht 0x1234), some .rdpers,
      some (.wrpers 5)] := by decide

theorem test_decode_front_end_high :
    [0b101100, 0b101101, 0b101110, 0b101111, 0b110000, 0b110001, 0b110010, 0b110011, 0b110100, 0b110101, 0b110110,
      0b110111].map (fun op => (decode (full op)).toOption) =
    [some .rdcfg, some (.wrcfg 0b10110), some .rdgain, some (.wrgain 5), some .rdid, some .wrid, some .rdstatus,
      some .wrstatus, some .rdc0, some .wrc0, some .rdc1, some .wrc1] := by decide

/-- Table F: reserved codes. -/
theorem test_decode_reserved :
    [0x06, 0x07, 0x0A, 0x0B, 0x10, 0x1F, 0x38, 0x3F].map (fun op => (decode (full op)).toOption) =
    [none, none, none, none, none, none, none, none] := by decide

/-- P1 row 2: `WRATIME ms=10000` encodes as op = 0x23, ms = 0x00002710. -/
theorem test_encode_wratime : (encode (.wratime 10000)).op = 0x23 ∧ (encode (.wratime 10000)).ms = 0x00002710 := by
  decide

/-- op 0x01 and b 0xA5 at bits 25:18. -/
theorem test_table_word : decodeTableWord 32 0b10100101_00000_00000_00_000001 = some (.endec 0xA5) := by decide

/-- The bits at and above `nbits` are 0. -/
theorem test_table_word_cut : decodeTableWord 8 0b10100101_00000_00000_00_000001 = some (.endec 0) := by decide

/-! ### The units (tables A to D) -/

theorem test_cmdenc : after (.cmdenc 0b00 0x0D) [] State.rCmd = some 0x8D := by decide
theorem test_cmdenc_kind_without_name : after (.cmdenc 0b10 0x05) [] State.rCmd = some 0xC5 := by decide
theorem test_endec : after (.endec 0x55) [] State.rFv = some 0b11001 := by decide
theorem test_endec_unknown_bits : after (.endec 0xA4) [] State.rFv = some 0 := by decide
theorem test_enenc : after (.enenc 0b10001) [] State.rByte = some 0x41 := by decide
theorem test_enenc_all : after (.enenc 0b11111) [] State.rByte = some 0x5B := by decide
theorem test_cfgdec : after (.cfgdec 0x04) [] State.rFv = some 0b00010 := by decide
theorem test_cfgenc : after (.cfgenc 0b11101) [] State.rByte = some 0x02 := by decide
theorem test_stdec : after (.stdec 0x10) [] State.rFv = some 0b00010 := by decide
theorem test_stdec_unknown_bits : after (.stdec 0xEE) [] State.rFv = some 0 := by decide
theorem test_t2ms : after (.t2ms 0 true) [] State.rMs = some 838656 := by decide
theorem test_ms2t : after (.ms2t 100000 true) [] (fun t => (t.err, t.rByte, t.rMs)) = some (0, 226, 98280) := by decide
theorem test_ms2t_negative : after (.ms2t (-1) false) [] ending = some (1, []) := by decide
theorem test_persdec : after (.persdec 0xF4) [] State.rVal = some 5 := by decide
theorem test_persdec_default : after (.persdec 0x0A) [] State.rVal = some 35 := by decide
theorem test_persenc : after (.persenc 60) [] State.rByte = some 0x0F := by decide
theorem test_persenc_between : after (.persenc 4) [] ending = some (2, []) := by decide
theorem test_gaindec : after (.gaindec 0xFE) [] State.rVal = some 16 := by decide
theorem test_gainenc : after (.gainenc 120) [] State.rByte = some 0x03 := by decide
theorem test_gainenc_not_listed : after (.gainenc 7) [] ending = some (2, []) := by decide

/-! ### The front end (table E) -/

theorem test_rden : after .rden (gives 0x001B) (fun t => (ending t, t.rFv)) = some ((0, [r1 0x80]), 0b01111) := by decide
theorem test_rden_fails : after .rden fails ending = some (4, [r1 0x80]) := by decide
theorem test_wren : after (.wren 0b11111) (gives 0) ending = some (0, [w1 0x80 0x5B]) := by decide
theorem test_wren_fails : after (.wren 0b00001) fails ending = some (4, [w1 0x80 0x01]) := by decide
theorem test_rdatime : after .rdatime (gives 0x00FF) State.rMs = some 273 := by decide
theorem test_wratime :
    after (.wratime 10000) (gives 0) (fun t => (ending t, t.rByte, t.rMs)) = some ((0, [w1 0x81 0xDC]), 220, 9828) := by
  decide
theorem test_wratime_range : after (.wratime 272) (gives 0) ending = some (1, []) := by decide
theorem test_rdwtime : after (.rdwtime true) (gives 0x00E2) State.rMs = some 98280 := by decide
theorem test_wrwtime :
    after (.wrwtime 100000 true) (gives 0) (fun t => (ending t, t.rMs)) = some ((0, [w1 0x83 0xE2]), 98280) := by decide
theorem test_wrwtime_range : after (.wrwtime 100000 false) (gives 0) ending = some (1, []) := by decide
theorem test_rdailt : after .rdailt (gives 0xABCD) (fun t => (ending t, t.rWord)) = some ((0, [r2 0xA4]), 0xABCD) := by
  decide
theorem test_wrailt : after (.wrailt 0x0100) (gives 0) ending = some (0, [w2 0xA4 0x0100]) := by decide
theorem test_rdaiht : after .rdaiht (gives 0xFFFF) State.rWord = some 0xFFFF := by decide
theorem test_wraiht : after (.wraiht 0xFFFF) (gives 0) ending = some (0, [w2 0xA6 0xFFFF]) := by decide
theorem test_rdpers : after .rdpers (gives 0x00F4) State.rVal = some 5 := by decide
theorem test_wrpers : after (.wrpers 5) (gives 0) ending = some (0, [w1 0x8C 0x04]) := by decide
theorem test_wrpers_between : after (.wrpers 4) (gives 0) ending = some (2, []) := by decide
theorem test_rdcfg : after .rdcfg (gives 0x00FF) State.rFv = some 0b00011 := by decide
theorem test_wrcfg : after (.wrcfg 0b00010) (gives 0) ending = some (0, [w1 0x8D 0x04]) := by decide
theorem test_rdgain : after .rdgain (gives 0x00FE) State.rVal = some 16 := by decide
theorem test_wrgain : after (.wrgain 8) (gives 0) ending = some (0, [w1 0x8F 0x01]) := by decide
theorem test_rdid : after .rdid (gives 0xFF34) State.rByte = some 0x34 := by decide
theorem test_wrid : after .wrid (gives 0) ending = some (3, []) := by decide
theorem test_rdstatus : after .rdstatus (gives 0x0001) State.rFv = some 0b00001 := by decide
theorem test_wrstatus : after .wrstatus (gives 0) ending = some (3, []) := by decide
theorem test_rdc0 : after .rdc0 (gives 0x1234) (fun t => (ending t, t.rWord)) = some ((0, [r2 0xB4]), 0x1234) := by decide
theorem test_wrc0 : after .wrc0 (gives 0) ending = some (3, []) := by decide
theorem test_rdc1_fails : after .rdc1 fails ending = some (4, [r2 0xB6]) := by decide
theorem test_wrc1 : after .wrc1 (gives 0) ending = some (3, []) := by decide

/-! ### Witnesses: each statement's hypotheses hold together somewhere -/

/-- A state in which the host presents the request of `i` and the transport answers `a`. -/
def asking (i : Instr) (a : Response) : State := ready [.present (encode i)] [a]

theorem witness_DecodeReadsBackEncode :
    (Instr.ms2t 2147483647 true).wellFormed = true ∧ (Instr.wrgain (-2147483648)).wellFormed = true := by decide

theorem witness_EncodeRebuildsDecodedRequest : decode (full 0x25) = .ok (.wrwtime (-2) true) := by rfl

theorem witness_OnlyFormatPortsAreRead :
    decode (full 0x24) = .ok (.rdwtime true) ∧ ({ Request.zero with op := 0x24, lng := true } : Request).op = (full 0x24).op ∧
      (Instr.rdwtime true).format.agree (full 0x24) { Request.zero with op := 0x24, lng := true } :=
  ⟨rfl, rfl, rfl⟩

/-- Both clauses, at the codes where they meet. -/
theorem witness_ReservedCodesRaiseIllegalOperation :
    (∀ op ∈ [(0x06 : BitVec 6), 0x0B, 0x10, 0x1F, 0x38, 0x3F], ∃ s : State, s.host = [HostMove.present (full op)] ∧ op ∈ reservedOps) ∧
    (∀ op ∈ [(0x05 : BitVec 6), 0x08, 0x0F, 0x20, 0x37], ∃ s : State, s.host = [HostMove.present (full op)] ∧ op ∉ reservedOps) :=
  ⟨fun op h => ⟨ready [.present (full op)] [], rfl, by revert op; decide⟩,
   fun op h => ⟨ready [.present (full op)] [], rfl, by revert op; decide⟩⟩

theorem witness_StepExecutesPresentedRequest :
    (ready [.present (full 0x20)] []).host = [.present (full 0x20)] ∧ decode (full 0x20) = .ok .rden ∧
      decodeTableWord 8 0b110000 = some .rdid := ⟨rfl, rfl, by decide⟩

theorem witness_OverlappingRequestsAreRefused :
    (ready [.overlap (full 0x20) (full 0x21)] []).host = [.overlap (full 0x20) (full 0x21)] := rfl

theorem witness_IdleAndResetDriveNothing : (ready [] []).host = [] ∧ (ready [.reset] []).host = [.reset] := ⟨rfl, rfl⟩

theorem witness_CmdencPacksCommandByte : (full 0x00).op = 0x00#6 := rfl

/-- Two requests with one command byte, and the lowest and highest bytes of the inverse. -/
theorem witness_CmdencIsInjectiveWithInverse :
    (∃ t t', exec (.cmdenc 0b11 0x1F) (ready [] []) = .next t ∧ exec (.cmdenc 0b11 0x1F) (ready [.reset] []) = .next t' ∧
      t.rCmd = t'.rCmd) ∧ 0x80 ≤ (0x80 : Byte).toNat ∧ 0x80 ≤ (0xFF : Byte).toNat :=
  ⟨⟨_, _, rfl, rfl, rfl⟩, by decide, by decide⟩

theorem witness_EndecUnpacksEnable : (full 0x01).op = 0x01#6 := rfl
theorem witness_EnencPacksEnable : (full 0x02).op = 0x02#6 := rfl
theorem witness_CfgdecUnpacksConfig : (full 0x03).op = 0x03#6 := rfl
theorem witness_CfgencPacksConfig : (full 0x04).op = 0x04#6 := rfl
theorem witness_StdecUnpacksStatus : (full 0x05).op = 0x05#6 := rfl
theorem witness_ConfigRoundTrips : (0b00011 : FlagVec).extractLsb' 2 3 = 0b000 := by decide
theorem witness_T2msGivesEncodedTime : (full 0x08).op = 0x08#6 := rfl

/-- Both clauses at the edges of R132: short 272 | 273 … 70160 | 70161, long 3275 | 3276 … 841931 | 841932. -/
theorem witness_Ms2tQuantizesOrRejects :
    (full 0x09).op = 0x09#6 ∧
    (256 - Int.fdiv 272 (stepOf false) > 255 ∧ 256 - Int.fdiv 70161 (stepOf false) < 0) ∧
    (256 - Int.fdiv 3275 (stepOf true) > 255 ∧ 256 - Int.fdiv 841932 (stepOf true) < 0) ∧
    (0 ≤ 256 - Int.fdiv 70160 (stepOf false) ∧ 256 - Int.fdiv 273 (stepOf false) ≤ 255) ∧
    (0 ≤ 256 - Int.fdiv 841931 (stepOf true) ∧ 256 - Int.fdiv 3276 (stepOf true) ≤ 255) := by decide

theorem witness_Ms2tLegalRange : ∃ t, exec (.ms2t 273 false) (ready [] []) = .next t := ⟨_, rfl⟩

theorem witness_QuantizationIsTowardShorterTime :
    ∃ t, exec (.ms2t 70160 false) (ready [] []) = .next t ∧ t.err = 0 := ⟨_, rfl, rfl⟩

theorem witness_TimeRoundTripIsExact :
    ∃ t, exec (.ms2t 841931 true) (ready [] []) = .next t ∧ t.err = 0 := ⟨_, rfl, rfl⟩

/-- A positive divisor; requests of 0 ms and 2.73 ms, on either side of the lower edge; one beyond the port each way. -/
theorem witness_Ms2tMatchesRealFormula :
    0 < 273 ∧ (255 : Int) < 256 - ⌊(0 : ℝ) / (2.73 * 1)⌋ ∧
    (0 ≤ 256 - ⌊(2.73 : ℝ) / (2.73 * 1)⌋ ∧ 256 - ⌊(2.73 : ℝ) / (2.73 * 1)⌋ ≤ 255) ∧
    (100 * (-(2 : ℝ) ^ 31) < -2 ^ 31) ∧ ((2 : ℝ) ^ 31 ≤ 100 * 2 ^ 31) := by
  norm_num

/-- Both clauses at their edges: short −1 | 273 … 70160 | 70161, long 3275 | 3276 … 841931 | 841932. At −1 truncation and
floor differ. -/
theorem witness_TruncationGivesTheSameOutcome :
    (256 - Int.tdiv (-1) (stepOf false) > 255 ∧ 256 - Int.tdiv 70161 (stepOf false) < 0) ∧
    (256 - Int.tdiv 3275 (stepOf true) > 255 ∧ 256 - Int.tdiv 841932 (stepOf true) < 0) ∧
    (0 ≤ 256 - Int.tdiv 70160 (stepOf false) ∧ 256 - Int.tdiv 273 (stepOf false) ≤ 255) ∧
    (0 ≤ 256 - Int.tdiv 841931 (stepOf true) ∧ 256 - Int.tdiv 3276 (stepOf true) ≤ 255) := by decide

theorem witness_TimesFitTwentyBits :
    (∃ t, exec (.t2ms 0 true) (ready [] []) = .next t) ∧
    (∃ t, exec (.ms2t 838656 true) (ready [] []) = .next t ∧ t.err = 0) := ⟨⟨_, rfl⟩, ⟨_, rfl, rfl⟩⟩

theorem witness_PersdecLooksUpCount : (full 0x0C).op = 0x0C#6 := rfl

theorem reset_persCount_60 : IsPersCount Rom.defaults 60 := ⟨60, by decide, by decide⟩

theorem reset_not_persCount_61 : ¬ IsPersCount Rom.defaults 61 := by
  unfold IsPersCount
  decide

theorem witness_PersencFindsIndexOrRejects :
    (full 0x0D).op = 0x0D#6 ∧ IsPersCount (ready [] []).rom 60 ∧ ¬ IsPersCount (ready [] []).rom 61 :=
  ⟨rfl, reset_persCount_60, reset_not_persCount_61⟩

theorem witness_GaindecLooksUpMultiplier : (full 0x0E).op = 0x0E#6 := rfl

theorem witness_GainencFindsIndexOrRejects :
    (full 0x0F).op = 0x0F#6 ∧ [(1 : Int), 8, 16, 120][3]? = some 120 ∧ (121 : Int) ∉ [(1 : Int), 8, 16, 120] := by decide

theorem witness_EnumerationTableLaws :
    (1 : Int) ∈ [(1 : Int), 8, 16, 120] ∧ (ready [.reset] []).rom = (ready [] []).rom ∧
      IsPersCount (ready [] []).rom 60 ∧ RomIncreasing (ready [] []).rom := by
  refine ⟨by decide, rfl, reset_persCount_60, ?_⟩
  unfold RomIncreasing
  decide

theorem witness_TransportAnswersInOrder : (asking .rden ⟨false, 7⟩).responses = [⟨false, 7⟩] := rfl

/-- The transport may answer and may fail: the two cases of every front-end statement. -/
theorem transport_may_answer_or_fail :
    (nextResponse (ready [] (gives 0xFF1B))).tOk = true ∧ (nextResponse (ready [] fails)).tOk = false := ⟨rfl, rfl⟩

theorem witness_FlagReadsDriveFlags :
    (full 0x20).op = 0x20#6 ∧ (full 0x2C).op = 0x2C#6 ∧ (full 0x32).op = 0x32#6 ∧
      (nextResponse (asking .rden ⟨true, 0xFF1B⟩)).tOk = true ∧ (nextResponse (asking .rdcfg ⟨false, 0⟩)).tOk = false :=
  ⟨rfl, rfl, rfl, rfl, rfl⟩

theorem witness_FlagWritesWritePackedByte :
    (full 0x21).op = 0x21#6 ∧ (full 0x2D).op = 0x2D#6 ∧
      (nextResponse (asking (.wren 1) ⟨true, 0⟩)).tOk = true ∧ (nextResponse (asking (.wrcfg 1) ⟨false, 0⟩)).tOk = false :=
  ⟨rfl, rfl, rfl, rfl⟩

theorem witness_TimeReadsDriveEncodedTime :
    (full 0x22).op = 0x22#6 ∧ (full 0x24).op = 0x24#6 ∧
      (nextResponse (asking .rdatime ⟨true, 0xFF⟩)).tOk = true ∧
      (nextResponse (asking (.rdwtime true) ⟨false, 0⟩)).tOk = false := ⟨rfl, rfl, rfl, rfl⟩

/-- Both clauses at the edges, and both answers. -/
theorem witness_TimeWritesQuantizeOrReject :
    (full 0x23).op = 0x23#6 ∧ (full 0x25).op = 0x25#6 ∧ (¬ TimeInRange 272 false ∧ TimeInRange 273 false) ∧
      (TimeInRange 70160 false ∧ ¬ TimeInRange 70161 false) ∧ (¬ TimeInRange 3275 true ∧ TimeInRange 3276 true) ∧
      (TimeInRange 841931 true ∧ ¬ TimeInRange 841932 true) ∧
      (nextResponse (asking (.wratime 273) ⟨true, 0⟩)).tOk = true ∧
      (nextResponse (asking (.wrwtime 3276 true) ⟨false, 0⟩)).tOk = false := by
  simp only [TimeInRange, stepOf]
  decide

theorem witness_WordReadsPassValueThrough :
    (full 0x26).op = 0x26#6 ∧ (full 0x28).op = 0x28#6 ∧ (full 0x34).op = 0x34#6 ∧ (full 0x36).op = 0x36#6 ∧
      (nextResponse (asking .rdc0 ⟨true, 0x1234⟩)).tOk = true ∧ (nextResponse (asking .rdc1 ⟨false, 0⟩)).tOk = false :=
  ⟨rfl, rfl, rfl, rfl, rfl, rfl⟩

theorem witness_WordWritesPassValueThrough :
    (full 0x27).op = 0x27#6 ∧ (full 0x29).op = 0x29#6 ∧
      (nextResponse (asking (.wrailt 0) ⟨true, 0⟩)).tOk = true ∧
      (nextResponse (asking (.wraiht 0xFFFF) ⟨false, 0⟩)).tOk = false := ⟨rfl, rfl, rfl, rfl⟩

theorem witness_EnumReadsLookUpTable :
    (full 0x2A).op = 0x2A#6 ∧ (full 0x2E).op = 0x2E#6 ∧ (asking .rdpers ⟨true, 0xF4⟩).rom = Rom.defaults ∧
      (nextResponse (asking .rdpers ⟨true, 0xF4⟩)).tOk = true ∧ (nextResponse (asking .rdgain ⟨false, 0⟩)).tOk = false :=
  ⟨rfl, rfl, rfl, rfl, rfl⟩

theorem witness_EnumWritesWriteIndexOrReject :
    (full 0x2B).op = 0x2B#6 ∧ (full 0x2F).op = 0x2F#6 ∧ IsPersCount (asking (.wrpers 60) ⟨true, 0⟩).rom 60 ∧
      ¬ IsPersCount (asking (.wrpers 61) ⟨true, 0⟩).rom 61 ∧ [(1 : Int), 8, 16, 120][0]? = some 1 ∧
      (0 : Int) ∉ [(1 : Int), 8, 16, 120] ∧ (nextResponse (asking (.wrpers 60) ⟨true, 0⟩)).tOk = true ∧
      (nextResponse (asking (.wrgain 1) ⟨false, 0⟩)).tOk = false :=
  ⟨rfl, rfl, reset_persCount_60, reset_not_persCount_61, rfl, by decide, rfl, rfl⟩

theorem witness_RdidDrivesRawByte :
    (full 0x30).op = 0x30#6 ∧ (nextResponse (asking .rdid ⟨true, 0x34⟩)).tOk = true ∧
      (nextResponse (asking .rdid ⟨false, 0⟩)).tOk = false := ⟨rfl, rfl, rfl⟩

theorem witness_ReadOnlyWritesAreViolations :
    (full 0x31).op = 0x31#6 ∧ (full 0x33).op = 0x33#6 ∧ (full 0x35).op = 0x35#6 ∧ (full 0x37).op = 0x37#6 :=
  ⟨rfl, rfl, rfl, rfl⟩

theorem witness_CommandBytesOfTheMap : (ready [] []).rom.kindAutoinc = 0b01 := rfl

theorem witness_AtMostOneTransactionPerStep : ∃ t, step (asking .rdc0 ⟨true, 0⟩) = .next t := ⟨_, rfl⟩

/-- A run over a request that asks, one that is rejected, a reset, and a step with no move left. -/
theorem witness_TransactionsFollowRequestOrder :
    ∃ t, Sys2Proof.core.run 4 (ready [.present (encode .rdc0), .present (encode .wrid), .reset] (gives 0)) = .next t ∧
      t.issued = [r2 0xB4] := ⟨_, rfl, by decide⟩

theorem witness_PrimitivesIssueNoTransaction :
    ∀ op ∈ [(0x00 : BitVec 6), 0x1F], (ready [.present (full op)] []).host = [.present (full op)] ∧
      (full op).op.getLsbD 5 = false := by
  intro op h
  exact ⟨rfl, by revert op; decide⟩

/-- Each error, and success, of a request that is presented. -/
theorem witness_DescriptorMatchesError :
    after (.wratime 272) [] State.err = some 1 ∧ after (.wrpers 4) [] State.err = some 2 ∧
    after .wrid [] State.err = some 3 ∧ after .rden fails State.err = some 4 ∧
    after .rden (gives 0) State.err = some 0 ∧
    (match step (ready [.present (full 0x3F)] []) with | .next t => some t.err | _ => none) = some 5 := by decide

/-- A request with this code, time and long-wait choice. -/
def timed (op : BitVec 6) (ms : BitVec 32) (lng : Bool) : Request := { full op with ms := ms, lng := lng }

/-- The edges of both ranges, for MS2T, WRATIME (which ignores `lng`) and WRWTIME. -/
theorem timeInvalid_edges :
    (TimeInvalid (timed 0x09 272 false) ∧ ¬ TimeInvalid (timed 0x09 273 false)) ∧
    (¬ TimeInvalid (timed 0x23 70160 true) ∧ TimeInvalid (timed 0x23 70161 true)) ∧
    (TimeInvalid (timed 0x25 3275 true) ∧ ¬ TimeInvalid (timed 0x25 3276 true)) ∧
    (¬ TimeInvalid (timed 0x25 841931 true) ∧ TimeInvalid (timed 0x25 841932 true)) := by
  refine ⟨⟨?_, ?_⟩, ⟨?_, ?_⟩, ⟨?_, ?_⟩, ⟨?_, ?_⟩⟩ <;>
  · simp only [TimeInvalid, TimeInRange, stepOf]
    decide

/-- The last entry of each table and a value past it. -/
theorem valueInvalid_edges :
    (¬ ValueInvalid Rom.defaults { full 0x0D with val := 60 } ∧ ValueInvalid Rom.defaults { full 0x2B with val := 61 }) ∧
    (¬ ValueInvalid Rom.defaults { full 0x2F with val := 120 } ∧ ValueInvalid Rom.defaults { full 0x0F with val := 121 }) := by
  refine ⟨⟨?_, ?_⟩, ⟨?_, ?_⟩⟩ <;>
  · simp only [ValueInvalid, IsPersCount]
    decide

/-- A request of each branch of the priority order; times and values at their edges are above. -/
theorem witness_FirstFailingCheckDecidesErr :
    (asking .rden ⟨false, 0⟩).host = [.present (encode .rden)] ∧ (full 0x3F).op ∈ reservedOps ∧
    (full 0x31).op ∉ reservedOps ∧ TimeInvalid (timed 0x25 841932 true) ∧
    ValueInvalid (ready [] []).rom { full 0x2B with val := 61 } ∧
    ¬ TimeInvalid (encode .rden) ∧ ¬ ValueInvalid (ready [] []).rom (encode .rden) ∧
    (nextResponse (asking .rden ⟨true, 0⟩)).tOk = true ∧ (nextResponse (asking .rden ⟨false, 0⟩)).tOk = false := by
  refine ⟨rfl, by decide, by decide, timeInvalid_edges.2.2.2.2, valueInvalid_edges.1.2, ?_, ?_, rfl, rfl⟩
  · simp [TimeInvalid, encode, encodeOver]
  · simp [ValueInvalid, encode, encodeOver]

/-- Two states that share the ROM and the next answer and differ in what came before. -/
theorem witness_OutcomeDependsOnRequestAndAnswerAlone :
    ∃ s s' : State, s.rom = s'.rom ∧ nextResponse s = nextResponse s' ∧ s ≠ s' :=
  ⟨ready [] (gives 7), { ready [.reset] (gives 7) with err := 4, issued := [r1 0x80] }, rfl, rfl, by
    intro h
    exact absurd (congrArg State.issued h) (by decide)⟩

theorem witness_RomNeverChanges :
    (∃ t, step (asking .rdpers ⟨true, 0⟩) = .next t) ∧ RomIncreasing (asking .rdpers ⟨true, 0⟩).rom := by
  refine ⟨⟨_, rfl⟩, ?_⟩
  unfold RomIncreasing
  decide

/-- A state in which one transaction was already asked for. -/
theorem witness_EveryStepKeepsBusSafe :
    BusSafe { asking (.wren 1) ⟨true, 0⟩ with issued := [w1 0x80 0x5B] } ∧
      ∃ t, step { asking (.wren 1) ⟨true, 0⟩ with issued := [w1 0x80 0x5B] } = .next t := by
  refine ⟨⟨?_, fun h => by cases h⟩, ⟨_, rfl⟩⟩
  intro x hx
  simp only [List.mem_singleton] at hx
  subst hx
  exact ⟨_, List.mem_cons_self, by decide, rfl, fun _ => by decide, fun h => by cases h⟩

theorem witness_SpecialKindIsNeverUsed :
    (asking .rdc0 ⟨true, 0⟩).rom.kindSpecial ≠ 0b00 ∧
      (asking .rdc0 ⟨true, 0⟩).rom.kindSpecial ≠ (asking .rdc0 ⟨true, 0⟩).rom.kindAutoinc ∧
      ∃ t, step (asking .rdc0 ⟨true, 0⟩) = .next t ∧ t.txValid = true := ⟨by decide, by decide, _, rfl, rfl⟩

theorem witness_ByteReadsIgnoreHighByte :
    Instr.rdid ∈ [Instr.rden, .rdatime, .rdwtime false, .rdwtime true, .rdpers, .rdcfg, .rdgain, .rdid, .rdstatus] ∧
      (0xFF34 : Word16).extractLsb' 0 8 = (0x0034 : Word16).extractLsb' 0 8 := by decide

end Sys2Proof.Tests
end

/-! ## The state: what every instruction and every step does (10_state.md) -/

namespace Sys2Proof.Machine

/-! ### Steps and the request they execute -/

/-- A presented request that decodes is executed with the host's later moves left (10_state.md R21). -/
theorem step_eq_exec_of_decode {s : State} {r : Request} {rest : List HostMove} {i : Instr}
    (hs : s.host = .present r :: rest) (hr : decode r = .ok i) :
    step s = exec i { s with host := rest } := by
  simp [step, nextMove_cons hs, hr]

theorem decode_ofTableWord {nbits w : Nat} {i : Instr} (h : decodeTableWord nbits w = some i) :
    decode (Request.ofTableWord nbits w) = .ok i := by
  unfold decodeTableWord at h
  split at h
  · next j hj => rw [hj, Option.some.inj h]
  · cases h

/-- Settles O7: the word of `withFetchWord` is the request at the head of the moves. -/
theorem stepExecutesPresentedRequest : Obligations.StepExecutesPresentedRequest :=
  ⟨fun _ _ _ _ hs hr => step_eq_exec_of_decode hs hr,
   fun s nbits w _ h => step_eq_exec_of_decode (s := s.withFetchWord nbits w) rfl (decode_ofTableWord h)⟩

/-- Everything a step that answers can be: nothing is presented, the request does not decode, or it is executed. -/
theorem step_next_cases {s t : State} (h : step s = .next t) :
    ∃ rest, t = withdraw { s with host := rest } ∨ (∃ e, t = reject e { s with host := rest }) ∨
      ∃ i, exec i { s with host := rest } = .next t := by
  cases hs : s.host with
  | nil =>
    simp only [step, nextMove_nil hs, Host.Outcome.next.injEq] at h
    exact ⟨[], .inl (by rw [← h, ← hs])⟩
  | cons m rest =>
    refine ⟨rest, ?_⟩
    cases m with
    | present r =>
      cases hr : decode r with
      | ok i => exact .inr (.inr ⟨i, by rw [← step_eq_exec_of_decode hs hr, h]⟩)
      | error e =>
        simp only [step, nextMove_cons hs, hr, Host.Outcome.next.injEq] at h
        exact .inr (.inl ⟨.illegalOperation, h.symm⟩)
    | overlap r r' => simp [step, nextMove_cons hs] at h
    | reset =>
      simp only [step, nextMove_cons hs, Host.Outcome.next.injEq] at h
      exact .inl h.symm

/-! ### Operands -/

/-- Settles O3, by the codes of the opcode table: each reads only the ports its format names. -/
theorem onlyFormatPortsAreRead : Obligations.OnlyFormatPortsAreRead := by
  intro r r' i h hop hagree
  unfold decode at h ⊢
  rw [hop]
  -- One goal per code; the reserved ones decode to nothing.
  split at h <;> cases h
  all_goals
    simp only [Instr.format, Format.agree] at hagree
    simp only [hagree]

/-! ### What an instruction does, as a plan

An instruction may ask the transport for one legal transaction, and then ends as the answer decides. Every claim about
all instructions is a claim about such plans. -/

/-- The transaction a request asks for, and how it ends once the transport has answered (44_register_ops.md R170). -/
structure Plan where
  asks : Option Txn
  ends : Response → Except Err Results

/-- Ask the transport for the transaction, if there is one. -/
def ask : Option Txn → State → State
  | none, s => s
  | some x, s => issue x s

/-- End the request with its results or with its error (60_exceptions.md R221). -/
def finish : Except Err Results → State → State
  | .ok r, s => succeed r s
  | .error e, s => raise e s

def Plan.run (p : Plan) (s : State) : State := finish (p.ends (nextResponse s)) (ask p.asks (withdraw s))

/-- How a transaction's request ends (R170 step 4, R171). -/
def endOnAnswer (results : Word16 → Results) (a : Response) : Except Err Results :=
  if a.tOk then .ok (results a.tRdata) else .error .transportError

theorem endOnAnswer_eq_ok {results : Word16 → Results} {a : Response} {r : Results}
    (h : endOnAnswer results a = .ok r) : ∃ v, r = results v := by
  unfold endOnAnswer at h
  split at h <;> cases h
  exact ⟨_, rfl⟩

theorem transact_eq_run (x : Txn) (results : Word16 → Results) (s : State) :
    transact x results s = Plan.run ⟨some x, endOnAnswer results⟩ s := by
  cases h : (nextResponse s).tOk
  · simp [transact_of_failed x results h, Plan.run, endOnAnswer, h, finish, ask]
  · simp [transact_of_ok x results h, Plan.run, endOnAnswer, h, finish, ask]

/-! ### What a plan drives and leaves alone -/

theorem Err.code_ne_zero (e : Err) : e.code ≠ 0 := by cases e <;> decide

theorem finish_kept {s t : State} (o : Except Err Results) (h : Kept s t) : Kept s (finish o t) := by
  cases o <;> exact h

theorem finish_noTransaction {s t : State} (o : Except Err Results) (h : NoTransaction s t) :
    NoTransaction s (finish o t) := by
  cases o <;> exact h

theorem finish_oneTransaction {x : Txn} {s t : State} (o : Except Err Results) (h : OneTransaction x s t) :
    OneTransaction x s (finish o t) := by
  cases o <;> exact h

theorem ask_onlyDrives {ports : List ResultPort} {s t : State} (x : Option Txn) (h : OnlyDrives ports s t) :
    OnlyDrives ports s (ask x t) := by
  cases x <;> exact h

theorem ask_kept {s t : State} (x : Option Txn) (h : Kept s t) : Kept s (ask x t) := by
  cases x <;> exact h

namespace Plan

variable {p : Plan} {s : State}

theorem run_kept (p : Plan) (s : State) : Kept s (p.run s) :=
  finish_kept _ (ask_kept p.asks ⟨rfl, rfl⟩)

theorem run_noTransaction (h : p.asks = none) : NoTransaction s (p.run s) := by
  rw [run, h]
  exact finish_noTransaction _ ⟨rfl, rfl, rfl⟩

theorem run_oneTransaction {x : Txn} (h : p.asks = some x) : OneTransaction x s (p.run s) := by
  rw [run, h]
  exact finish_oneTransaction _ (by simp [OneTransaction, ask])

theorem run_of_ok {r : Results} (h : p.ends (nextResponse s) = .ok r) :
    p.run s = succeed r (ask p.asks (withdraw s)) := by
  simp [run, h, finish]

theorem run_of_error {e : Err} (h : p.ends (nextResponse s) = .error e) :
    p.run s = raise e (ask p.asks (withdraw s)) := by
  simp [run, h, finish]

end Plan

/-- The results name exactly the ports `ports`. -/
def Results.Names (r : Results) (ports : List ResultPort) : Prop :=
  (r.cmd.isSome ↔ .cmd ∈ ports) ∧ (r.byte.isSome ↔ .byte ∈ ports) ∧ (r.fv.isSome ↔ .fv ∈ ports) ∧
  (r.ms.isSome ↔ .ms ∈ ports) ∧ (r.val.isSome ↔ .val ∈ ports) ∧ (r.word.isSome ↔ .word ∈ ports)

theorem Results.Names.within {r : Results} {ports : List ResultPort} (h : r.Names ports) : r.Within ports := by
  obtain ⟨h1, h2, h3, h4, h5, h6⟩ := h
  simp [Results.Within, ← h1, ← h2, ← h3, ← h4, ← h5, ← h6]

/-- A port the results name shows the same value, whatever the state was before. -/
theorem getD_eq_getD_of_isSome {α : Type} {o : Option α} (h : o.isSome) (a b : α) : o.getD a = o.getD b := by
  rw [← Option.get_eq_getD (h := h), ← Option.get_eq_getD (h := h)]

/-- The plan asks for a legal transaction at most, and every success of it drives the ports of `i`. -/
def Plan.Suits (p : Plan) (rom : Rom) (i : Instr) : Prop :=
  (∀ x ∈ p.asks, LegalTxn rom x) ∧ ∀ a r, p.ends a = .ok r → r.Names (drives i)

/-- With this ROM the instruction follows one plan, from every state. -/
def Planned (rom : Rom) (i : Instr) : Prop :=
  ∃ p : Plan, p.Suits rom i ∧ ∀ s : State, s.rom = rom → exec i s = .next (p.run s)

/-! ### Legal transactions (10_state.md R30) -/

/-- The command byte is `{1, kind, address}` (R70, R100). -/
theorem commandByte_eq_append : ∀ (kind : BitVec 2) (addr : BitVec 5),
    commandByte kind addr = 1#1 ++ kind ++ addr := by decide

section
variable {rom : Rom} {reg : Reg} {word : Bool}

theorem legalTxn_read (hw : reg.isWord = word) : LegalTxn rom ⟨false, word, regCommand rom reg, 0⟩ := by
  have hd : ∃ d ∈ deviceMap, d.address = reg.address ∧ d.word = reg.isWord := by cases reg <;> decide
  obtain ⟨d, hmem, haddr, hword⟩ := hd
  refine ⟨d, hmem, ?_, by rw [hword, hw], by simp, by simp⟩
  rw [regCommand, commandByte_eq_append, haddr, hword, Reg.kind]
  rfl

/-- A write is legal where the map has the register writable and every bit of the data in its mask. -/
theorem legalTxn_write {mask v : Word16} (hw : reg.isWord = word)
    (hd : (⟨reg.address, word, true, mask⟩ : DeviceRegister) ∈ deviceMap) (hv : v &&& ~~~ mask = 0) :
    LegalTxn rom ⟨true, word, regCommand rom reg, v⟩ := by
  refine ⟨_, hd, ?_, rfl, fun _ => ⟨rfl, hv⟩, by simp⟩
  rw [regCommand, commandByte_eq_append, Reg.kind, hw]
  rfl

end

/-- A byte on the data port has no bit of the high byte. -/
theorem setWidth_and_not_lowByte (v : Byte) : v.setWidth 16 &&& ~~~ (0x00FF : Word16) = 0 := by
  revert v
  decide

theorem enenc_within_mask : ∀ fv : FlagVec, (enenc fv).setWidth 16 &&& ~~~ (0x005B : Word16) = 0 := by decide

theorem cfgenc_within_mask : ∀ fv : FlagVec, (cfgenc fv).setWidth 16 &&& ~~~ (0x0006 : Word16) = 0 := by decide

/-- A raw field is an index into its table. -/
theorem tableEncode_lt {table : List Byte} {v : Int} {b : Byte} (h : tableEncode table v = some b) :
    ∃ n < table.length, b = BitVec.ofNat 8 n := by
  by_cases hmem : ∃ e ∈ table, (e.toNat : Int) = v
  · obtain ⟨n, hn, henc, -⟩ := tableEncode_of_mem hmem
    exact ⟨n, hn, Option.some.inj (h.symm.trans henc)⟩
  · rw [tableEncode_of_not_mem hmem] at h
    cases h

theorem persenc_within_mask {rom : Rom} {v : Int} {b : Byte} (h : persenc rom v = some b) :
    b.setWidth 16 &&& ~~~ (0x000F : Word16) = 0 := by
  obtain ⟨n, hn, rfl⟩ := tableEncode_lt h
  rw [persTable_length] at hn
  have : ∀ n < 16, (BitVec.ofNat 8 n).setWidth 16 &&& ~~~ (0x000F : Word16) = 0 := by decide
  exact this n hn

theorem gainenc_within_mask {v : Int} {b : Byte} (h : gainenc v = some b) :
    b.setWidth 16 &&& ~~~ (0x0003 : Word16) = 0 := by
  obtain ⟨n, hn, rfl⟩ := tableEncode_lt h
  have : ∀ n < 4, (BitVec.ofNat 8 n).setWidth 16 &&& ~~~ (0x0003 : Word16) = 0 := by decide
  exact this n hn

/-! ### Every instruction has a plan -/

section
variable {rom : Rom} {i : Instr}

theorem planned_of_compute (r : Results) (h : ∀ s : State, s.rom = rom → exec i s = .next (compute r s))
    (hr : r.Names (drives i) := by simp [Results.Names, drives]) : Planned rom i :=
  ⟨⟨none, fun _ => .ok r⟩, ⟨by simp, by rintro _ _ ⟨⟩; exact hr⟩, h⟩

theorem planned_of_reject (e : Err) (h : ∀ s : State, s.rom = rom → exec i s = .next (reject e s)) : Planned rom i :=
  ⟨⟨none, fun _ => .error e⟩, ⟨by simp, by rintro _ _ ⟨⟩⟩, h⟩

theorem planned_of_transact {x : Txn} (results : Word16 → Results) (hx : LegalTxn rom x)
    (hr : ∀ v, (results v).Names (drives i))
    (h : ∀ s : State, s.rom = rom → exec i s = .next (transact x results s)) : Planned rom i := by
  refine ⟨⟨some x, endOnAnswer results⟩, ⟨by simpa using hx, fun a r ha => ?_⟩, fun s hs => ?_⟩
  · obtain ⟨v, rfl⟩ := endOnAnswer_eq_ok ha
    exact hr v
  · rw [h s hs, transact_eq_run]

theorem planned_of_readByte (reg : Reg) (results : Byte → Results)
    (h : ∀ s : State, s.rom = rom → exec i s = .next (readByte reg results s)) (hreg : reg.isWord = false := by rfl)
    (hr : ∀ v, (results v).Names (drives i) := by simp [Results.Names, drives]) : Planned rom i :=
  planned_of_transact _ (legalTxn_read hreg) (fun v => hr (v.setWidth 8)) fun s hs => by rw [h s hs, readByte, hs]

theorem planned_of_readWord (reg : Reg) (results : Word16 → Results)
    (h : ∀ s : State, exec i s = .next (readWord reg results s)) (hreg : reg.isWord = true := by rfl)
    (hr : ∀ v, (results v).Names (drives i) := by simp [Results.Names, drives]) : Planned rom i :=
  planned_of_transact results (legalTxn_read hreg) hr fun s hs => by rw [h s, readWord, hs]

theorem planned_of_writeByte (reg : Reg) (mask : Word16) (v : Byte) (results : Results)
    (hv : v.setWidth 16 &&& ~~~ mask = 0)
    (h : ∀ s : State, s.rom = rom → exec i s = .next (writeByte reg v results s))
    (hr : results.Names (drives i) := by simp [Results.Names, drives]) (hreg : reg.isWord = false := by rfl)
    (hd : (⟨reg.address, false, true, mask⟩ : DeviceRegister) ∈ deviceMap := by decide) : Planned rom i :=
  planned_of_transact (fun _ => results) (legalTxn_write hreg hd hv) (fun _ => hr) fun s hs => by
    rw [h s hs, writeByte, hs]

theorem planned_of_writeWord (reg : Reg) (v : Word16) (results : Results)
    (h : ∀ s : State, exec i s = .next (writeWord reg v results s))
    (hr : results.Names (drives i) := by simp [Results.Names, drives]) (hreg : reg.isWord = true := by rfl)
    (hd : (⟨reg.address, true, true, 0xFFFF⟩ : DeviceRegister) ∈ deviceMap := by decide) : Planned rom i :=
  planned_of_transact (fun _ => results) (legalTxn_write hreg hd (by simp)) (fun _ => hr) fun s hs => by
    rw [h s, writeWord, hs]

theorem planned_of_writeTime (reg : Reg) (ms : Int) (lng : Bool)
    (h : ∀ s : State, exec i s = .next (writeTime reg ms lng s)) (hi : drives i = [.byte, .ms] := by rfl)
    (hreg : reg.isWord = false := by rfl)
    (hd : (⟨reg.address, false, true, 0x00FF⟩ : DeviceRegister) ∈ deviceMap := by decide) : Planned rom i := by
  cases hms : ms2t ms lng with
  | none => exact planned_of_reject .rangeError fun s _ => by rw [h, writeTime, hms]
  | some r =>
    exact planned_of_writeByte reg 0x00FF r.1 { byte := some r.1, ms := some r.2 } (setWidth_and_not_lowByte r.1)
      (fun s _ => by rw [h, writeTime, hms]) (by simp [hi, Results.Names]) hreg hd

theorem planned_of_writeField (reg : Reg) (mask : Word16) (field : Option Byte)
    (hv : ∀ b, field = some b → b.setWidth 16 &&& ~~~ mask = 0)
    (h : ∀ s : State, s.rom = rom → exec i s = .next (writeField reg field s)) (hi : drives i = [] := by rfl)
    (hreg : reg.isWord = false := by rfl)
    (hd : (⟨reg.address, false, true, mask⟩ : DeviceRegister) ∈ deviceMap := by decide) : Planned rom i := by
  cases field with
  | none => exact planned_of_reject .unsupportedValueError h
  | some b => exact planned_of_writeByte reg mask b {} (hv b rfl) h (by simp [hi, Results.Names]) hreg hd

theorem planned_of_computeField (field : Option Byte)
    (h : ∀ s : State, s.rom = rom → exec i s = .next (computeField field s)) (hi : drives i = [.byte] := by rfl) :
    Planned rom i := by
  cases field with
  | none => exact planned_of_reject .unsupportedValueError h
  | some b => exact planned_of_compute { byte := some b } h (by simp [hi, Results.Names])

end

/-- Every instruction follows a plan: the one case analysis over the instructions. -/
theorem exec_planned (rom : Rom) (i : Instr) : Planned rom i := by
  cases i with
  | cmdenc kind addr => exact planned_of_compute _ fun _ _ => rfl
  | endec b => exact planned_of_compute _ fun _ _ => rfl
  | enenc fv => exact planned_of_compute _ fun _ _ => rfl
  | cfgdec b => exact planned_of_compute _ fun _ _ => rfl
  | cfgenc fv => exact planned_of_compute _ fun _ _ => rfl
  | stdec b => exact planned_of_compute _ fun _ _ => rfl
  | t2ms b lng => exact planned_of_compute _ fun _ _ => rfl
  | ms2t ms lng =>
    cases h : ms2t ms lng with
    | none => exact planned_of_reject .rangeError fun s _ => by simp [exec, execMs2t, h]
    | some r =>
      exact planned_of_compute { byte := some r.1, ms := some r.2 } fun s _ => by simp [exec, execMs2t, h]
  | persdec b => exact planned_of_compute { val := some (persdec rom b) } (by rintro s rfl; rfl)
  | persenc val => exact planned_of_computeField (persenc rom val) (by rintro s rfl; rfl)
  | gaindec b => exact planned_of_compute _ fun _ _ => rfl
  | gainenc val => exact planned_of_computeField _ fun _ _ => rfl
  | rden => exact planned_of_readByte .enable _ fun _ _ => rfl
  | wren fv => exact planned_of_writeByte .enable 0x005B _ _ (enenc_within_mask fv) fun _ _ => rfl
  | rdatime => exact planned_of_readByte .atime _ fun _ _ => rfl
  | wratime ms => exact planned_of_writeTime .atime ms false fun _ => rfl
  | rdwtime lng => exact planned_of_readByte .wtime _ fun _ _ => rfl
  | wrwtime ms lng => exact planned_of_writeTime .wtime ms lng fun _ => rfl
  | rdailt => exact planned_of_readWord .ailt _ fun _ => rfl
  | wrailt w => exact planned_of_writeWord .ailt w _ fun _ => rfl
  | rdaiht => exact planned_of_readWord .aiht _ fun _ => rfl
  | wraiht w => exact planned_of_writeWord .aiht w _ fun _ => rfl
  | rdpers => exact planned_of_readByte .pers (fun v => { val := some (persdec rom v) }) (by rintro s rfl; rfl)
  | wrpers val =>
    exact planned_of_writeField .pers 0x000F (persenc rom val) (fun _ => persenc_within_mask) (by rintro s rfl; rfl)
  | rdcfg => exact planned_of_readByte .config _ fun _ _ => rfl
  | wrcfg fv => exact planned_of_writeByte .config 0x0006 _ _ (cfgenc_within_mask fv) fun _ _ => rfl
  | rdgain => exact planned_of_readByte .control _ fun _ _ => rfl
  | wrgain val => exact planned_of_writeField .control 0x0003 _ (fun _ => gainenc_within_mask) fun _ _ => rfl
  | rdid => exact planned_of_readByte .id _ fun _ _ => rfl
  | wrid => exact planned_of_reject .readOnlyViolation fun _ _ => rfl
  | rdstatus => exact planned_of_readByte .status _ fun _ _ => rfl
  | wrstatus => exact planned_of_reject .readOnlyViolation fun _ _ => rfl
  | rdc0 => exact planned_of_readWord .c0data _ fun _ => rfl
  | wrc0 => exact planned_of_reject .readOnlyViolation fun _ _ => rfl
  | rdc1 => exact planned_of_readWord .c1data _ fun _ => rfl
  | wrc1 => exact planned_of_reject .readOnlyViolation fun _ _ => rfl

/-! ### How an instruction ends, whatever it is -/

/-- Settles O51: the instruction's plan ends in an error, which drives no result port, or drives the ports of `i`. -/
theorem undrivenPortsAreFree : Obligations.UndrivenPortsAreFree := by
  intro i s
  obtain ⟨p, ⟨-, hnames⟩, hexec⟩ := exec_planned s.rom i
  refine ⟨p.run s, hexec s rfl, ?_⟩
  have hasked (ports : List ResultPort) : OnlyDrives ports s (ask p.asks (withdraw s)) :=
    ask_onlyDrives p.asks (withdraw_onlyDrives ports s)
  cases hends : p.ends (nextResponse s) with
  | error e =>
    rw [Plan.run_of_error hends, raise_err, if_neg e.code_ne_zero]
    exact raise_onlyDrives e (hasked [])
  | ok r =>
    rw [Plan.run_of_ok hends, succeed_err, if_pos rfl]
    exact succeed_onlyDrives (hnames _ r hends).within (hasked (drives i))

/-- Settles O52: with one ROM both states follow one plan, whose transaction and end the answer alone decides. -/
theorem outcomeDependsOnRequestAndAnswerAlone : Obligations.OutcomeDependsOnRequestAndAnswerAlone := by
  intro i s s' hrom hanswer
  obtain ⟨p, ⟨-, hnames⟩, hexec⟩ := exec_planned s.rom i
  refine ⟨p.run s, p.run s', hexec s rfl, hexec s' hrom.symm, ?_⟩
  have htxn : (NoTransaction s (p.run s) ∧ NoTransaction s' (p.run s')) ∨
      ∃ x, OneTransaction x s (p.run s) ∧ OneTransaction x s' (p.run s') := by
    cases hasks : p.asks with
    | none => exact .inl ⟨Plan.run_noTransaction hasks, Plan.run_noTransaction hasks⟩
    | some x => exact .inr ⟨x, Plan.run_oneTransaction hasks, Plan.run_oneTransaction hasks⟩
  cases hends : p.ends (nextResponse s) with
  | error e =>
    have hends' : p.ends (nextResponse s') = .error e := hanswer ▸ hends
    rw [Plan.run_of_error hends, Plan.run_of_error hends'] at htxn ⊢
    exact ⟨rfl, fun h => absurd h e.code_ne_zero, htxn⟩
  | ok r =>
    have hends' : p.ends (nextResponse s') = .ok r := hanswer ▸ hends
    obtain ⟨hcmd, hbyte, hfv, hms, hval, hword⟩ := hnames _ r hends
    rw [Plan.run_of_ok hends, Plan.run_of_ok hends'] at htxn ⊢
    exact ⟨rfl, fun _ =>
      ⟨fun h => getD_eq_getD_of_isSome (hcmd.2 h) _ _, fun h => getD_eq_getD_of_isSome (hbyte.2 h) _ _,
       fun h => getD_eq_getD_of_isSome (hfv.2 h) _ _, fun h => getD_eq_getD_of_isSome (hms.2 h) _ _,
       fun h => getD_eq_getD_of_isSome (hval.2 h) _ _, fun h => getD_eq_getD_of_isSome (hword.2 h) _ _⟩, htxn⟩

/-! ### What every step keeps -/

/-- A step leaves the ROM alone, and asks the transport for nothing or for one legal transaction. -/
theorem step_keeps_rom_and_asks_legally {s t : State} (h : step s = .next t) :
    t.rom = s.rom ∧ (NoTransaction s t ∨ ∃ x, LegalTxn s.rom x ∧ OneTransaction x s t) := by
  obtain ⟨rest, rfl | ⟨e, rfl⟩ | ⟨i, hi⟩⟩ := step_next_cases h
  · exact ⟨rfl, .inl ⟨rfl, rfl, rfl⟩⟩
  · exact ⟨rfl, .inl ⟨rfl, rfl, rfl⟩⟩
  · obtain ⟨p, ⟨hlegal, -⟩, hexec⟩ := exec_planned s.rom i
    cases (hexec { s with host := rest } rfl).symm.trans hi
    obtain ⟨hrom, -⟩ := p.run_kept { s with host := rest }
    refine ⟨hrom, ?_⟩
    cases hasks : p.asks with
    | none => exact .inl (Plan.run_noTransaction (s := { s with host := rest }) hasks)
    | some x =>
      exact .inr ⟨x, hlegal x hasks, Plan.run_oneTransaction (s := { s with host := rest }) hasks⟩

/-- Settles O53: the ROM that every step keeps holds the persistence table. -/
theorem romNeverChanges : Obligations.RomNeverChanges := by
  intro s t h
  obtain ⟨hrom, -⟩ := step_keeps_rom_and_asks_legally h
  exact ⟨hrom, fun hinc => hrom ▸ hinc⟩

theorem BusSafe.of_noTransaction {s t : State} (hs : BusSafe s) (hrom : t.rom = s.rom) (h : NoTransaction s t) :
    BusSafe t := by
  obtain ⟨hvalid, hissued, -⟩ := h
  obtain ⟨hlegal, -⟩ := hs
  exact ⟨by rwa [hissued, hrom], by simp [hvalid]⟩

theorem BusSafe.of_oneTransaction {s t : State} {x : Txn} (hs : BusSafe s) (hrom : t.rom = s.rom)
    (hx : LegalTxn s.rom x) (h : OneTransaction x s t) : BusSafe t := by
  obtain ⟨-, hwrite, hword, hcmd, hwdata, hissued, -⟩ := h
  obtain ⟨hlegal, -⟩ := hs
  refine ⟨fun y hy => ?_, fun _ => by simp [hissued, hwrite, hword, hcmd, hwdata]⟩
  rw [hrom]
  rw [hissued, List.mem_append, List.mem_singleton] at hy
  obtain hy | rfl := hy
  · exact hlegal y hy
  · exact hx

/-- Settles O54: a step appends nothing to the record, or one legal transaction, the one on the ports. -/
theorem everyStepKeepsBusSafe : Obligations.EveryStepKeepsBusSafe := by
  intro s t hs h
  obtain ⟨hrom, hnone | ⟨x, hx, hone⟩⟩ := step_keeps_rom_and_asks_legally h
  · exact hs.of_noTransaction hrom hnone
  · exact hs.of_oneTransaction hrom hx hone

/-! ### Byte reads -/

/-- A byte read takes the low byte of the answer alone (10_state.md R28). -/
theorem readByte_congr_lowByte {v v' : Word16} (h : v.extractLsb' 0 8 = v'.extractLsb' 0 8) (reg : Reg)
    (results : Byte → Results) (ok : Bool) (as : List Response) (s : State) :
    readByte reg results { s with responses := ⟨ok, v⟩ :: as } =
      readByte reg results { s with responses := ⟨ok, v'⟩ :: as } := by
  have hlow : v.setWidth 8 = v'.setWidth 8 := by simpa [BitVec.setWidth_eq_extractLsb'] using h
  cases ok
  · rfl
  · change succeed (results (v.setWidth 8)) _ = succeed (results (v'.setWidth 8)) _
    rw [hlow]
    rfl

/-- The nine are byte reads, each of one register. -/
theorem exec_eq_readByte {i : Instr}
    (hi : i ∈ [Instr.rden, .rdatime, .rdwtime false, .rdwtime true, .rdpers, .rdcfg, .rdgain, .rdid, .rdstatus])
    (rom : Rom) : ∃ reg results, ∀ s : State, s.rom = rom → exec i s = .next (readByte reg results s) := by
  simp only [List.mem_cons, List.not_mem_nil, or_false] at hi
  obtain rfl | rfl | rfl | rfl | rfl | rfl | rfl | rfl | rfl := hi
  · exact ⟨.enable, _, fun _ _ => rfl⟩
  · exact ⟨.atime, _, fun _ _ => rfl⟩
  · exact ⟨.wtime, _, fun _ _ => rfl⟩
  · exact ⟨.wtime, _, fun _ _ => rfl⟩
  · exact ⟨.pers, fun v => { val := some (persdec rom v) }, by rintro s rfl; rfl⟩
  · exact ⟨.config, _, fun _ _ => rfl⟩
  · exact ⟨.control, _, fun _ _ => rfl⟩
  · exact ⟨.id, _, fun _ _ => rfl⟩
  · exact ⟨.status, _, fun _ _ => rfl⟩

/-- Settles O57: each of the nine is a byte read, which takes the low byte alone. -/
theorem byteReadsIgnoreHighByte : Obligations.ByteReadsIgnoreHighByte := by
  intro i s ok v v' as hi hv
  obtain ⟨reg, results, hexec⟩ := exec_eq_readByte hi s.rom
  rw [hexec { s with responses := ⟨ok, v⟩ :: as } rfl, hexec { s with responses := ⟨ok, v'⟩ :: as } rfl,
    readByte_congr_lowByte hv]

end Sys2Proof.Machine

/-! ## The order of transactions (20_memory.md R57) -/

namespace Sys2Proof.Machine

/-! ### The codes of the front end (30_encoding.md R74) -/

/-- The code of a register's read or write: `Reg` lists the registers in the order of the map of R30, which the codes of
R74 run through. -/
def Reg.code (reg : Reg) (write : Bool) : BitVec 6 :=
  1#1 ++ BitVec.ofNat 4 reg.ctorIdx ++ BitVec.ofBool write

theorem Reg.code_bit0 (reg : Reg) (write : Bool) : (reg.code write).getLsbD 0 = write := by
  cases reg <;> cases write <;> rfl

/-- The code picks its own register out of the map. -/
theorem deviceMap_getElem?_code (reg : Reg) (write : Bool) :
    ∃ d, deviceMap[((reg.code write).extractLsb' 1 4).toNat]? = some d ∧ d.address = reg.address ∧
      d.word = reg.isWord := by
  cases reg <;> cases write <;> exact ⟨_, rfl, rfl, rfl⟩

/-- The transaction with the register of the code, in the code's direction, is one of the request. -/
theorem txnOf_code {rom : Rom} {r : Request} {reg : Reg} {write : Bool} (hop : r.op = reg.code write) (v : Word16) :
    TxnOf rom r ⟨write, reg.isWord, regCommand rom reg, v⟩ := by
  obtain ⟨d, hd, haddr, hword⟩ := deviceMap_getElem?_code reg write
  refine ⟨by rw [hop, Reg.code_bit0], d, by rw [hop, hd], ?_, hword.symm⟩
  rw [regCommand, commandByte_eq_append, haddr, hword, Reg.kind]
  rfl

/-- The codes of the opcode table (R73, R74). -/
def executedOps : List (BitVec 6) :=
  [0x00, 0x01, 0x02, 0x03, 0x04, 0x05, 0x08, 0x09, 0x0C, 0x0D, 0x0E, 0x0F, 0x20, 0x21, 0x22, 0x23, 0x24, 0x25, 0x26,
   0x27, 0x28, 0x29, 0x2A, 0x2B, 0x2C, 0x2D, 0x2E, 0x2F, 0x30, 0x31, 0x32, 0x33, 0x34, 0x35, 0x36, 0x37]

/-- A request that does not decode has a reserved code (R75). -/
theorem mem_reservedOps_of_decode_error {r : Request} {e : DecodeError} (h : decode r = .error e) :
    r.op ∈ reservedOps := by
  have hcodes : ∀ op : BitVec 6, op ∈ reservedOps ∨ op ∈ executedOps := by decide
  refine (hcodes r.op).resolve_right fun hop => ?_
  unfold decode at h
  split at h <;> cases h
  simp_all [executedOps]

/-! ### Which requests ask (60_exceptions.md R227) -/

/-- The front-end codes that no check before the transaction can stop. -/
def uncheckedOps : List (BitVec 6) :=
  [0x20, 0x21, 0x22, 0x24, 0x26, 0x27, 0x28, 0x29, 0x2A, 0x2C, 0x2D, 0x2E, 0x30, 0x32, 0x34, 0x36]

section
variable {rom : Rom} {r : Request}

theorem asks_of_mem_uncheckedOps (h : r.op ∈ uncheckedOps) : Asks rom r := by
  have hcodes : ∀ op ∈ uncheckedOps, op.getLsbD 5 = true ∧ op ∉ reservedOps ∧
      op ∉ [(0x31 : BitVec 6), 0x33, 0x35, 0x37] ∧ op ∉ [(0x09 : BitVec 6), 0x25] ∧ op ≠ 0x23 ∧
      op ∉ [(0x0D : BitVec 6), 0x2B] ∧ op ∉ [(0x0F : BitVec 6), 0x2F] := by
    decide
  obtain ⟨hfront, hres, hro, htime, hatime, hpers, hgain⟩ := hcodes r.op h
  exact ⟨hfront, hres, hro, by simp only [TimeInvalid, htime, hatime, false_and, or_self, not_false_eq_true],
    by simp only [ValueInvalid, hpers, hgain, false_and, or_self, not_false_eq_true]⟩

theorem not_asks_of_primitive {op : BitVec 6} (hop : r.op = op) (h : op.getLsbD 5 = false := by rfl) :
    ¬ Asks rom r := by
  rintro ⟨hfront, -⟩
  rw [hop, h] at hfront
  cases hfront

theorem not_asks_of_reserved (h : r.op ∈ reservedOps) : ¬ Asks rom r := fun ⟨_, hres, _⟩ => hres h

theorem not_asks_of_readOnly {op : BitVec 6} (hop : r.op = op)
    (h : op ∈ [(0x31 : BitVec 6), 0x33, 0x35, 0x37] := by decide) : ¬ Asks rom r :=
  fun ⟨_, _, hro, _⟩ => hro (hop ▸ h)

theorem asks_wratime_iff (hop : r.op = 0x23) : Asks rom r ↔ TimeInRange r.ms.toInt false := by
  simp [Asks, TimeInvalid, ValueInvalid, reservedOps, hop]

theorem asks_wrwtime_iff (hop : r.op = 0x25) : Asks rom r ↔ TimeInRange r.ms.toInt r.lng := by
  simp [Asks, TimeInvalid, ValueInvalid, reservedOps, hop]

theorem asks_wrpers_iff (hop : r.op = 0x2B) : Asks rom r ↔ IsPersCount rom r.val.toInt := by
  simp [Asks, TimeInvalid, ValueInvalid, reservedOps, hop]

theorem asks_wrgain_iff (hop : r.op = 0x2F) : Asks rom r ↔ ∃ e ∈ gainTable, (e.toNat : Int) = r.val.toInt := by
  simp [Asks, TimeInvalid, ValueInvalid, reservedOps, hop, gainTable, eq_comm, ← or_iff_not_imp_left]

end

/-! ### What a request asks of the transport -/

/-- From `s` to `t` the request has asked for its one transaction if it passes its checks, and for none otherwise. -/
def Serviced (r : Request) (s t : State) : Prop :=
  Kept s t ∧ (Asks s.rom r → ∃ x, TxnOf s.rom r x ∧ OneTransaction x s t) ∧ (¬ Asks s.rom r → NoTransaction s t)

section
variable {r : Request} {s : State}

theorem serviced_compute (res : Results) (h : ¬ Asks s.rom r) : Serviced r s (compute res s) :=
  ⟨⟨rfl, rfl⟩, fun ha => absurd ha h, fun _ => ⟨rfl, rfl, rfl⟩⟩

theorem serviced_reject (e : Err) (h : ¬ Asks s.rom r) : Serviced r s (reject e s) :=
  ⟨⟨rfl, rfl⟩, fun ha => absurd ha h, fun _ => ⟨rfl, rfl, rfl⟩⟩

theorem serviced_computeField (field : Option Byte) (h : ¬ Asks s.rom r) : Serviced r s (computeField field s) := by
  cases field with
  | none => exact serviced_reject _ h
  | some b => exact serviced_compute _ h

theorem serviced_transact {reg : Reg} {write : Bool} (v : Word16) (results : Word16 → Results)
    (hop : r.op = reg.code write) (h : Asks s.rom r) :
    Serviced r s (transact ⟨write, reg.isWord, regCommand s.rom reg, v⟩ results s) :=
  ⟨transact_kept _ _ _, fun _ => ⟨_, txnOf_code hop v, transact_oneTransaction _ _ _⟩, fun hn => absurd h hn⟩

/-- The transaction of a code without validation. -/
theorem serviced_unchecked (reg : Reg) (write : Bool) (v : Word16) (results : Word16 → Results)
    (hop : r.op = reg.code write) (h : reg.code write ∈ uncheckedOps := by decide) :
    Serviced r s (transact ⟨write, reg.isWord, regCommand s.rom reg, v⟩ results s) :=
  serviced_transact v results hop (asks_of_mem_uncheckedOps (hop ▸ h))

theorem serviced_writeByte {reg : Reg} (v : Byte) (results : Results) (hop : r.op = reg.code true)
    (h : Asks s.rom r) (hreg : reg.isWord = false) : Serviced r s (writeByte reg v results s) := by
  rw [writeByte, ← hreg]
  exact serviced_transact _ _ hop h

theorem serviced_writeTime {reg : Reg} {ms : Int} {lng : Bool} (hop : r.op = reg.code true)
    (hasks : Asks s.rom r ↔ TimeInRange ms lng) (hreg : reg.isWord = false := by rfl) :
    Serviced r s (writeTime reg ms lng s) := by
  by_cases h : TimeInRange ms lng
  · obtain ⟨b, achieved, hms, -⟩ := ms2t_of_inRange h
    rw [writeTime, hms]
    exact serviced_writeByte _ _ hop (hasks.2 h) hreg
  · rw [writeTime, ms2t_of_not_inRange h]
    exact serviced_reject _ (mt hasks.1 h)

theorem serviced_writeField {reg : Reg} {table : List Byte} {v : Int} (hop : r.op = reg.code true)
    (hasks : Asks s.rom r ↔ ∃ e ∈ table, (e.toNat : Int) = v) (hreg : reg.isWord = false := by rfl) :
    Serviced r s (writeField reg (tableEncode table v) s) := by
  by_cases h : ∃ e ∈ table, (e.toNat : Int) = v
  · obtain ⟨n, -, henc, -⟩ := tableEncode_of_mem h
    rw [henc]
    exact serviced_writeByte _ _ hop (hasks.2 h) hreg
  · rw [tableEncode_of_not_mem h]
    exact serviced_reject _ (mt hasks.1 h)

end

/-- Every instruction services the request it was read from: one goal per code, in the order of the opcode table. -/
theorem exec_serviced {r : Request} {i : Instr} (hr : decode r = .ok i) (s : State) :
    ∃ t, exec i s = .next t ∧ Serviced r s t := by
  unfold decode at hr
  split at hr <;> cases hr <;> refine ⟨_, rfl, ?_⟩
  -- The units (R73).
  next hop => exact serviced_compute _ (not_asks_of_primitive hop) -- CMDENC
  next hop => exact serviced_compute _ (not_asks_of_primitive hop) -- ENDEC
  next hop => exact serviced_compute _ (not_asks_of_primitive hop) -- ENENC
  next hop => exact serviced_compute _ (not_asks_of_primitive hop) -- CFGDEC
  next hop => exact serviced_compute _ (not_asks_of_primitive hop) -- CFGENC
  next hop => exact serviced_compute _ (not_asks_of_primitive hop) -- STDEC
  next hop => exact serviced_compute _ (not_asks_of_primitive hop) -- T2MS
  next hop => -- MS2T
    have hna : ¬ Asks s.rom r := not_asks_of_primitive hop
    split
    · exact serviced_compute _ hna
    · exact serviced_reject _ hna
  next hop => exact serviced_compute _ (not_asks_of_primitive hop) -- PERSDEC
  next hop => exact serviced_computeField _ (not_asks_of_primitive hop) -- PERSENC
  next hop => exact serviced_compute _ (not_asks_of_primitive hop) -- GAINDEC
  next hop => exact serviced_computeField _ (not_asks_of_primitive hop) -- GAINENC
  -- The front end (R74).
  next hop => exact serviced_unchecked .enable false _ _ hop
  next hop => exact serviced_unchecked .enable true _ _ hop
  next hop => exact serviced_unchecked .atime false _ _ hop
  next hop => exact serviced_writeTime (reg := .atime) hop (asks_wratime_iff hop)
  next hop => exact serviced_unchecked .wtime false _ _ hop
  next hop => exact serviced_writeTime (reg := .wtime) hop (asks_wrwtime_iff hop)
  next hop => exact serviced_unchecked .ailt false _ _ hop
  next hop => exact serviced_unchecked .ailt true _ _ hop
  next hop => exact serviced_unchecked .aiht false _ _ hop
  next hop => exact serviced_unchecked .aiht true _ _ hop
  next hop => exact serviced_unchecked .pers false _ _ hop
  next hop => exact serviced_writeField (reg := .pers) hop (asks_wrpers_iff hop)
  next hop => exact serviced_unchecked .config false _ _ hop
  next hop => exact serviced_unchecked .config true _ _ hop
  next hop => exact serviced_unchecked .control false _ _ hop
  next hop => exact serviced_writeField (reg := .control) hop (asks_wrgain_iff hop)
  next hop => exact serviced_unchecked .id false _ _ hop
  next hop => exact serviced_reject _ (not_asks_of_readOnly hop) -- WRID
  next hop => exact serviced_unchecked .status false _ _ hop
  next hop => exact serviced_reject _ (not_asks_of_readOnly hop) -- WRSTATUS
  next hop => exact serviced_unchecked .c0data false _ _ hop
  next hop => exact serviced_reject _ (not_asks_of_readOnly hop) -- WRC0
  next hop => exact serviced_unchecked .c1data false _ _ hop
  next hop => exact serviced_reject _ (not_asks_of_readOnly hop) -- WRC1

/-! ### Steps and runs -/

theorem step_of_no_move {s : State} (h : s.host = []) : step s = .next (withdraw s) := by
  simp [step, nextMove_nil h]

/-- The step of a presented request answers, and services it. -/
theorem step_serviced {s : State} {r : Request} {rest : List HostMove} (hs : s.host = .present r :: rest) :
    ∃ t, step s = .next t ∧ Serviced r { s with host := rest } t := by
  cases hr : decode r with
  | ok i =>
    rw [step_eq_exec_of_decode hs hr]
    exact exec_serviced hr _
  | error e =>
    exact ⟨_, by simp only [step, nextMove_cons hs, hr]; rfl,
      serviced_reject .illegalOperation (not_asks_of_reserved (mem_reservedOps_of_decode_error hr))⟩

/-- In the record of transactions a request that is serviced has appended what serves it. -/
theorem Serviced.appends {r : Request} {s t : State} (h : Serviced r s t) :
    ∃ xs, t.issued = s.issued ++ xs ∧ Serves s.rom (.present r) xs := by
  obtain ⟨-, hone, hnone⟩ := h
  by_cases ha : Asks s.rom r
  · obtain ⟨x, htxn, -, -, -, -, -, hissued, -⟩ := hone ha
    exact ⟨[x], hissued, fun _ => ⟨x, rfl, htxn⟩, fun hn => absurd ha hn⟩
  · obtain ⟨-, hissued, -⟩ := hnone ha
    exact ⟨[], by simp [hissued], fun h => absurd h ha, fun _ => rfl⟩

/-- A step with a move to come takes that move alone, keeps the ROM, and appends what serves the move. -/
theorem step_serves {s t : State} {m : HostMove} {rest : List HostMove} (hs : s.host = m :: rest)
    (h : step s = .next t) :
    t.host = rest ∧ t.rom = s.rom ∧ ∃ xs, t.issued = s.issued ++ xs ∧ Serves s.rom m xs := by
  cases m with
  | present r =>
    obtain ⟨t', ht', hserv⟩ := step_serviced hs
    cases ht'.symm.trans h
    have happends := hserv.appends
    obtain ⟨⟨hrom, hhost⟩, -⟩ := hserv
    exact ⟨hhost, hrom, happends⟩
  | overlap r r' => simp [step, nextMove_cons hs] at h
  | reset =>
    simp only [step, nextMove_cons hs, Host.Outcome.next.injEq] at h
    subst h
    exact ⟨rfl, rfl, [], by simp, rfl⟩

/-- A run that answers has made its first step, and runs on from there. -/
theorem run_succ_eq_next {M : Host.Core} {k : Nat} {s t : M.State} (h : M.run (k + 1) s = .next t) :
    ∃ s', M.step s = .next s' ∧ M.run k s' = .next t := by
  rw [Host.Core.run] at h
  split at h
  · next s' hs' => exact ⟨s', hs', h⟩
  · cases h
  · cases h

/-- Settles O47, by induction on the steps: the first one serves the first move, the run after it the later ones. -/
theorem transactionsFollowRequestOrder : Obligations.TransactionsFollowRequestOrder := by
  intro k
  induction k with
  | zero =>
    rintro s t ⟨⟩
    exact ⟨[], by simp, by simp, by simp⟩
  | succ k ih =>
    intro s t h
    obtain ⟨s', hstep, hrun⟩ : ∃ s', step s = .next s' ∧ core.run k s' = .next t := run_succ_eq_next h
    obtain ⟨asked, hhost, hissued, hserves⟩ := ih s' t hrun
    cases hs : s.host with
    | nil =>
      cases (step_of_no_move hs).symm.trans hstep
      exact ⟨asked, by simpa [hs] using hhost, hissued, by simpa [hs] using hserves⟩
    | cons m rest =>
      obtain ⟨hrest, hrom, xs, hxs, hm⟩ := step_serves hs hstep
      rw [hrest] at hhost hserves
      rw [hrom] at hserves
      exact ⟨xs :: asked, by simp [hhost], by simp [hissued, hxs], by simpa using ⟨hm, hserves⟩⟩

end Sys2Proof.Machine

/-! ## The encoding of requests (30_encoding.md) -/

namespace Sys2Proof

/-! ### A request's bits (R84, assumption 1) -/

theorem append_eq_append_iff {m n : Nat} {hi hi' : BitVec m} {lo lo' : BitVec n} :
    hi ++ lo = hi' ++ lo' ↔ hi = hi' ∧ lo = lo' := by
  refine ⟨fun h => ⟨?_, ?_⟩, fun ⟨hhi, hlo⟩ => by rw [hhi, hlo]⟩
  · simpa only [BitVec.extractLsb'_append_eq_left] using congrArg (BitVec.extractLsb' n m) h
  · simpa only [BitVec.extractLsb'_append_eq_right] using congrArg (BitVec.extractLsb' 0 n) h

theorem ofBool_getLsbD_eq_extractLsb' {n : Nat} (x : BitVec n) (i : Nat) :
    BitVec.ofBool (x.getLsbD i) = x.extractLsb' i 1 := by
  ext j hj
  obtain rfl : j = 0 := by omega
  simp

theorem Request.toBits_injective : Function.Injective Request.toBits := by
  intro r r' h
  obtain ⟨hw, hrest⟩ := append_eq_append_iff.1 h
  simp only [append_eq_append_iff, BitVec.ofBool_eq_iff_eq] at hrest
  obtain ⟨hval, hms, hlng, hb, hfv, haddr, hkind, hop⟩ := hrest
  cases r
  cases r'
  simp only [Request.mk.injEq]
  exact ⟨hop, hkind, haddr, hfv, hb, hlng, hms, hval, hw⟩

/-- The slices that the ports take are adjacent and cover the 107 bits. -/
theorem Request.toBits_ofBits (w : BitVec 107) : (Request.ofBits w).toBits = w := by
  have join (start low high : Nat) :
      w.extractLsb' (start + low) high ++ w.extractLsb' start low = w.extractLsb' start (high + low) :=
    BitVec.extractLsb'_append_extractLsb'_eq_extractLsb' rfl
  simp only [Request.toBits, Request.ofBits, ofBool_getLsbD_eq_extractLsb']
  rw [join 0 6 2, join 0 8 5, join 0 13 5, join 0 18 8, join 0 26 1, join 0 27 32, join 0 59 32, join 0 91 16]
  exact BitVec.extractLsb'_eq_self

/-- Settles O5: the second half is `toBits_ofBits`, and gives the first since `toBits` is injective. -/
theorem requestBitsRoundTrip : Obligations.RequestBitsRoundTrip :=
  ⟨fun r => Request.toBits_injective (Request.toBits_ofBits r.toBits), Request.toBits_ofBits⟩

end Sys2Proof

namespace Sys2Proof.Machine

/-! ### Decoding and encoding undo each other (R73, R74, R76, R77) -/

/-- Settles O1: the code that the encoder writes selects the instruction's own arm of the decoder, and a 32-bit port
gives back the integer written to it. -/
theorem decodeReadsBackEncode : Obligations.DecodeReadsBackEncode := by
  intro base i hwf
  cases i with
  | ms2t v | wratime v | wrwtime v | persenc v | gainenc v | wrpers v | wrgain v =>
    have hport : readSigned (writeSigned v) = v := readSigned_writeSigned hwf
    simp [encodeOver, decode, hport]
  | _ => rfl

theorem request_with_own_op {r : Request} {op : BitVec 6} (h : r.op = op) : { r with op := op } = r := by
  rw [← h]

/-- Settles O2: in the arm that `r.op` selects, the encoder writes back that code and the ports just read. -/
theorem encodeRebuildsDecodedRequest : Obligations.EncodeRebuildsDecodedRequest := by
  intro r i h
  unfold decode at h
  -- One goal per code; the reserved ones decode to nothing.
  split at h <;> cases h
  all_goals
    next hop =>
      refine ⟨by simp only [Instr.wellFormed, readSigned_fitsPort], ?_⟩
      simp only [encodeOver, writeSigned_readSigned]
      exact request_with_own_op hop

/-! ### Reserved codes (R75) -/

/-- The converse of `mem_reservedOps_of_decode_error`. -/
theorem not_mem_reservedOps_of_decode_ok {r : Request} {i : Instr} (h : decode r = .ok i) : r.op ∉ reservedOps := by
  unfold decode at h
  split at h <;> cases h
  all_goals next hop => rw [hop]; decide

/-- A presented request that does not decode raises IllegalOperation (R226). -/
theorem step_eq_reject_of_decode_error {s : State} {r : Request} {rest : List HostMove} {e : DecodeError}
    (hs : s.host = .present r :: rest) (hr : decode r = .error e) :
    step s = .next (reject .illegalOperation { s with host := rest }) := by
  simp only [step, nextMove_cons hs, hr]
  rfl

/-- Settles O4: the codes that do not decode are exactly the reserved ones. -/
theorem reservedCodesRaiseIllegalOperation : Obligations.ReservedCodesRaiseIllegalOperation := by
  refine ⟨by decide, by decide, fun s r rest hs hop => ?_, fun s r rest hs hop => ?_⟩
  · cases hr : decode r with
    | ok i => exact absurd hop (not_mem_reservedOps_of_decode_ok hr)
    | error e => exact ⟨_, step_eq_reject_of_decode_error hs hr, reject_rejects .illegalOperation _⟩
  · cases hr : decode r with
    | ok i => exact ⟨i, rfl, step_eq_exec_of_decode hs hr⟩
    | error e => exact absurd (mem_reservedOps_of_decode_error hr) hop

/-! ### Written words (assumption 1) -/

/-- Settles O6: the ports of each word are computed, and decode to its operation. -/
theorem writtenWordsDecode : Obligations.WrittenWordsDecode := by
  unfold Obligations.WrittenWordsDecode
  decide

/-! ### Which requests issue a transaction, and with which command byte (R72, R78) -/

/-- Settles O48: a request with `op[5] = 0` is not one that asks (`Asks`), and every step serves its
request (`step_serviced`). -/
theorem primitivesIssueNoTransaction : Obligations.PrimitivesIssueNoTransaction := by
  intro s r rest hs hop
  obtain ⟨t, hstep, -, -, hnone⟩ := step_serviced hs
  exact ⟨t, hstep, hnone (not_asks_of_primitive rfl hop)⟩

/-- Each row's operation reads one register, with the row's address and width. -/
theorem commandByteTable_reads {row : Instr × Byte × Bool × Byte} (h : row ∈ commandByteTable) :
    ∃ reg : Reg, reg.address.setWidth 8 = row.2.1 ∧ reg.isWord = row.2.2.1 ∧
      ∀ s : State, ∃ results, exec row.1 s =
        .next (transact ⟨false, reg.isWord, regCommand s.rom reg, 0⟩ results s) := by
  simp only [commandByteTable, List.mem_cons, List.not_mem_nil, or_false] at h
  obtain rfl | rfl | rfl | rfl | rfl | rfl | rfl | rfl | rfl | rfl | rfl | rfl := h
  · exact ⟨.enable, rfl, rfl, fun _ => ⟨_, rfl⟩⟩
  · exact ⟨.atime, rfl, rfl, fun _ => ⟨_, rfl⟩⟩
  · exact ⟨.wtime, rfl, rfl, fun _ => ⟨_, rfl⟩⟩
  · exact ⟨.ailt, rfl, rfl, fun _ => ⟨_, rfl⟩⟩
  · exact ⟨.aiht, rfl, rfl, fun _ => ⟨_, rfl⟩⟩
  · exact ⟨.pers, rfl, rfl, fun _ => ⟨_, rfl⟩⟩
  · exact ⟨.config, rfl, rfl, fun _ => ⟨_, rfl⟩⟩
  · exact ⟨.control, rfl, rfl, fun _ => ⟨_, rfl⟩⟩
  · exact ⟨.id, rfl, rfl, fun _ => ⟨_, rfl⟩⟩
  · exact ⟨.status, rfl, rfl, fun _ => ⟨_, rfl⟩⟩
  · exact ⟨.c0data, rfl, rfl, fun _ => ⟨_, rfl⟩⟩
  · exact ⟨.c1data, rfl, rfl, fun _ => ⟨_, rfl⟩⟩

/-- The listed bytes are the packed ones at `KIND_AUTOINC = 0b01`. -/
theorem commandByteTable_default : ∀ row ∈ commandByteTable,
    0x80 ||| ((if row.2.2.1 then 0b01#2 else 0b00).setWidth 8 <<< 5) ||| row.2.1 = row.2.2.2 := by decide

/-- Settles O45: the one transaction of the read carries its register's command byte, whose kind is the register's. -/
theorem commandBytesOfTheMap : Obligations.CommandBytesOfTheMap := by
  intro row hrow s
  obtain ⟨reg, haddr, hword, hexec⟩ := commandByteTable_reads hrow
  obtain ⟨results, hs⟩ := hexec s
  obtain ⟨hvalid, -, -, hcmd, -⟩ :=
    transact_oneTransaction ⟨false, reg.isWord, regCommand s.rom reg, 0⟩ results s
  have hpacked : regCommand s.rom reg =
      0x80 ||| ((if row.2.2.1 then s.rom.kindAutoinc else 0b00).setWidth 8 <<< 5) ||| row.2.1 := by
    rw [← haddr, ← hword]
    rfl
  refine ⟨_, hs, hvalid, hcmd.trans hpacked, fun hauto => ?_⟩
  rw [hcmd, hpacked, hauto]
  exact commandByteTable_default row hrow

end Sys2Proof.Machine

/-! ## The command codec (40_command_codec.md) -/

namespace Sys2Proof.Machine

/-! ### The fields of a command byte (R100, R101) -/

/-- The three fields of `1 kk aaaaa` do not overlap, so its value is the sum of theirs. -/
theorem append_fields_toNat (kind : BitVec 2) (addr : BitVec 5) :
    (1#1 ++ kind ++ addr).toNat = 0x80 + 32 * kind.toNat + addr.toNat := by
  rw [BitVec.toNat_append, BitVec.toNat_append, ← Nat.shiftLeft_add_eq_or_of_lt addr.isLt,
    ← Nat.shiftLeft_add_eq_or_of_lt kind.isLt, Nat.shiftLeft_eq, Nat.shiftLeft_eq, BitVec.toNat_ofNat]
  omega

/-- Appends of the fields are equal only field by field. -/
theorem append_fields_inj {kind kind' : BitVec 2} {addr addr' : BitVec 5}
    (h : 1#1 ++ kind ++ addr = 1#1 ++ kind' ++ addr') : kind = kind' ∧ addr = addr' := by
  obtain ⟨hhigh, haddr⟩ := append_eq_append_iff.1 h
  exact ⟨(append_eq_append_iff.1 hhigh).2, haddr⟩

theorem getLsbD_seven_iff (c : Byte) : c.getLsbD 7 = true ↔ 0x80 ≤ c.toNat := by
  have hmsb : c.getLsbD 7 = decide (0x80 ≤ c.toNat) := BitVec.msb_eq_decide c
  rw [hmsb, decide_eq_true_iff]

/-- A byte with bit 7 set is the append of its own fields: the slices of R101 are adjacent and cover the rest. -/
theorem append_own_fields {c : Byte} (h : c.getLsbD 7 = true) : 1#1 ++ c.extractLsb' 5 2 ++ c.extractLsb' 0 5 = c := by
  have htop : c.extractLsb' 7 1 = 1#1 := by
    rw [← ofBool_getLsbD_eq_extractLsb', h]
    rfl
  have hhigh : 1#1 ++ c.extractLsb' 5 2 = c.extractLsb' 5 3 := by
    rw [← htop]
    exact BitVec.extractLsb'_append_extractLsb'_eq_extractLsb' rfl
  calc 1#1 ++ c.extractLsb' 5 2 ++ c.extractLsb' 0 5
      = c.extractLsb' 5 3 ++ c.extractLsb' 0 5 := by rw [hhigh]
    _ = c.extractLsb' 0 8 := BitVec.extractLsb'_append_extractLsb'_eq_extractLsb' rfl
    _ = c := BitVec.extractLsb'_eq_self

/-! ### CMDENC (R100, R101) -/

theorem exec_cmdenc (kind : BitVec 2) (addr : BitVec 5) (s : State) :
    exec (.cmdenc kind addr) s = .next (compute { cmd := some (commandByte kind addr) } s) := rfl

theorem rCmd_of_exec_cmdenc {kind : BitVec 2} {addr : BitVec 5} {s t : State}
    (h : exec (.cmdenc kind addr) s = .next t) : t.rCmd = 1#1 ++ kind ++ addr := by
  rw [exec_cmdenc] at h
  cases h
  exact commandByte_eq_append kind addr

theorem rCmd_toNat_of_exec_cmdenc {kind : BitVec 2} {addr : BitVec 5} {s t : State}
    (h : exec (.cmdenc kind addr) s = .next t) : t.rCmd.toNat = 0x80 + 32 * kind.toNat + addr.toNat := by
  rw [rCmd_of_exec_cmdenc h]
  exact append_fields_toNat kind addr

theorem rCmd_getLsbD_seven_of_exec_cmdenc {kind : BitVec 2} {addr : BitVec 5} {s t : State}
    (h : exec (.cmdenc kind addr) s = .next t) : t.rCmd.getLsbD 7 = true := by
  rw [getLsbD_seven_iff, rCmd_toNat_of_exec_cmdenc h]
  omega

/-- Settles O12: the result is the append of the three fields, whose value is their sum. -/
theorem cmdencPacksCommandByte : Obligations.CmdencPacksCommandByte := by
  refine ⟨fun r hop => by simp [decode, hop], fun kind addr s => ?_⟩
  have hexec := exec_cmdenc kind addr s
  exact ⟨_, hexec, compute_computes (by simp [Results.Within]) s, rCmd_of_exec_cmdenc hexec,
    rCmd_toNat_of_exec_cmdenc hexec⟩

/-- Settles O13: appends of the fields are equal only field by field, and a byte with bit 7 set is the append of its
own. -/
theorem cmdencIsInjectiveWithInverse : Obligations.CmdencIsInjectiveWithInverse := by
  refine ⟨fun k k' a a' s s' t t' h h' hsame => ?_, fun k a s t h => ?_, fun c s hc => ?_⟩
  · rw [rCmd_of_exec_cmdenc h, rCmd_of_exec_cmdenc h'] at hsame
    exact append_fields_inj hsame
  · have hbit := rCmd_getLsbD_seven_of_exec_cmdenc h
    exact ⟨hbit, append_fields_inj ((append_own_fields hbit).trans (rCmd_of_exec_cmdenc h))⟩
  · have hexec := exec_cmdenc (c.extractLsb' 5 2) (c.extractLsb' 0 5) s
    exact ⟨_, hexec, (rCmd_of_exec_cmdenc hexec).trans (append_own_fields ((getLsbD_seven_iff c).2 hc))⟩

end Sys2Proof.Machine

/-! ## The bit-field registers (41_bitfield.md) -/

namespace Sys2Proof.Machine

/-! ### The bit of a flag's mask (10_state.md R31, R36, R39) -/

/-- The index of the flag's bit in its register. -/
def Flag.bit (f : Flag) : Nat := f.mask.toNat.log2

theorem Flag.mask_eq_twoPow (f : Flag) : f.mask = BitVec.twoPow 8 f.bit := by cases f <;> rfl

theorem Flag.bit_lt (f : Flag) : f.bit < 8 := by cases f <;> decide

theorem Flag.place_lt (f : Flag) : f.place < 5 := by cases f <;> decide

/-- Each mask has one bit, so testing the mask is reading that bit. -/
theorem and_mask_ne_zero_iff (b : Byte) (f : Flag) : b &&& f.mask ≠ 0 ↔ b.getLsbD f.bit = true := by
  rw [f.mask_eq_twoPow, BitVec.and_twoPow]
  cases b.getLsbD f.bit with
  | false => simp
  | true => simpa [← f.mask_eq_twoPow] using (by cases f <;> decide : f.mask ≠ 0)

/-! ### The bits of the two transforms

Encode moves each flag from its place to its bit, decode from its bit to its place. -/

theorem packFlags_nil (fv : FlagVec) : packFlags [] fv = 0 := rfl

theorem packFlags_cons (f : Flag) (flags : List Flag) (fv : FlagVec) :
    packFlags (f :: flags) fv = (if fv.getLsbD f.place then f.mask else 0) ||| packFlags flags fv :=
  BitVec.or_comm _ _

theorem getLsbD_packFlags (flags : List Flag) (fv : FlagVec) (j : Nat) :
    (packFlags flags fv).getLsbD j = flags.any fun f => f.bit == j && fv.getLsbD f.place := by
  induction flags with
  | nil => simp [packFlags_nil]
  | cons f flags ih =>
    rw [packFlags_cons, BitVec.getLsbD_or, ih, f.mask_eq_twoPow, List.any_cons]
    cases fv.getLsbD f.place <;> simp [BitVec.getLsbD_twoPow, f.bit_lt, beq_eq_decide]

theorem unpackFlags_cons (f : Flag) (flags : List Flag) (b : Byte) :
    unpackFlags (f :: flags) b =
      unpackFlags flags b ||| (if b &&& f.mask ≠ 0 then BitVec.twoPow 5 f.place else 0) := rfl

theorem getLsbD_unpackFlags (flags : List Flag) (b : Byte) (i : Nat) :
    (unpackFlags flags b).getLsbD i = flags.any fun f => f.place == i && b.getLsbD f.bit := by
  induction flags with
  | nil => simp [unpackFlags]
  | cons f flags ih =>
    rw [unpackFlags_cons, BitVec.getLsbD_or, ih, List.any_cons, Bool.or_comm]
    simp only [and_mask_ne_zero_iff]
    cases b.getLsbD f.bit <;> simp [BitVec.getLsbD_twoPow, f.place_lt, beq_eq_decide]

/-- Where no flag has a place above bit 1, decode leaves bits 4:2 clear (D9). -/
theorem extractLsb'_unpackFlags_eq_zero {flags : List Flag} (h : ∀ f ∈ flags, f.place < 2) (b : Byte) :
    (unpackFlags flags b).extractLsb' 2 3 = 0b000 := by
  ext i hi
  have hnone : ∀ f ∈ flags, f.place ≠ 2 + i := fun f hf => by
    have := h f hf
    omega
  simp +contextual [getLsbD_unpackFlags, hnone]

/-! ### Round trips of the two transforms -/

/-- The flags of one register: two of them share a place exactly if they share a bit. -/
def PlacesMatchBits (flags : List Flag) : Prop :=
  ∀ f ∈ flags, ∀ g ∈ flags, f.place = g.place ↔ f.bit = g.bit

theorem enableFlags_placesMatchBits : PlacesMatchBits enableFlags := by
  unfold PlacesMatchBits
  decide

theorem configFlags_placesMatchBits : PlacesMatchBits configFlags := by
  unfold PlacesMatchBits
  decide

theorem statusFlags_placesMatchBits : PlacesMatchBits statusFlags := by
  unfold PlacesMatchBits
  decide

/-- Moving each flag's value from index `p` to index `q` and back keeps the values at the flags' indices and drops the
rest. -/
theorem any_move_back {flags : List Flag} {p q : Flag → Nat} (h : ∀ f ∈ flags, ∀ g ∈ flags, p f = p g ↔ q f = q g)
    (v : Nat → Bool) (i : Nat) :
    (flags.any fun f => p f == i && flags.any fun g => q g == q f && v (p g)) =
      (v i && flags.any fun f => p f == i) := by
  rw [Bool.eq_iff_iff]
  simp only [List.any_eq_true, Bool.and_eq_true, beq_iff_eq]
  constructor
  · rintro ⟨f, hf, rfl, g, hg, hq, hv⟩
    rw [(h g hg f hf).2 hq] at hv
    exact ⟨hv, f, hf, rfl⟩
  · rintro ⟨hv, f, hf, rfl⟩
    exact ⟨f, hf, rfl, f, hf, rfl, hv⟩

section
variable {flags : List Flag} (h : PlacesMatchBits flags)
include h

theorem unpackFlags_packFlags {known : FlagVec}
    (hknown : ∀ i < 5, known.getLsbD i = flags.any fun f => f.place == i) (fv : FlagVec) :
    unpackFlags flags (packFlags flags fv) = fv &&& known := by
  apply BitVec.eq_of_getLsbD_eq
  intro i hi
  simp only [getLsbD_unpackFlags, getLsbD_packFlags, BitVec.getLsbD_and, hknown i hi]
  exact any_move_back h fv.getLsbD i

theorem packFlags_unpackFlags {known : Byte}
    (hknown : ∀ j < 8, known.getLsbD j = flags.any fun f => f.bit == j) (b : Byte) :
    packFlags flags (unpackFlags flags b) = b &&& known := by
  apply BitVec.eq_of_getLsbD_eq
  intro j hj
  simp only [getLsbD_unpackFlags, getLsbD_packFlags, BitVec.getLsbD_and, hknown j hj]
  exact any_move_back (fun f hf g hg => (h f hf g hg).symm) b.getLsbD j

/-- Decode puts the test of each known mask at the flag's place. -/
theorem getLsbD_place_unpackFlags {f : Flag} (hf : f ∈ flags) (b : Byte) :
    (unpackFlags flags b).getLsbD f.place = (b &&& f.mask != 0) := by
  rw [getLsbD_unpackFlags, Bool.eq_iff_iff, bne_iff_ne, and_mask_ne_zero_iff]
  simp only [List.any_eq_true, Bool.and_eq_true, beq_iff_eq]
  constructor
  · rintro ⟨g, hg, hplace, hbit⟩
    rwa [(h g hg f hf).1 hplace] at hbit
  · intro hbit
    exact ⟨f, hf, rfl, hbit⟩

end

theorem endec_enenc (fv : FlagVec) : endec (enenc fv) = fv :=
  (unpackFlags_packFlags enableFlags_placesMatchBits (known := BitVec.allOnes 5) (by decide) fv).trans
    BitVec.and_allOnes

theorem enenc_endec (b : Byte) : enenc (endec b) = b &&& 0x5B :=
  packFlags_unpackFlags enableFlags_placesMatchBits (by decide) b

theorem cfgdec_cfgenc (fv : FlagVec) : cfgdec (cfgenc fv) = fv &&& 0b00011 :=
  unpackFlags_packFlags configFlags_placesMatchBits (by decide) fv

theorem cfgenc_cfgdec (b : Byte) : cfgenc (cfgdec b) = b &&& 0x06 :=
  packFlags_unpackFlags configFlags_placesMatchBits (by decide) b

theorem and_three_eq_self_of_high_eq_zero : ∀ fv : FlagVec, fv.extractLsb' 2 3 = 0b000 → fv &&& 0b00011 = fv := by
  decide

theorem extractLsb'_and_three (fv : FlagVec) : (fv &&& 0b00011).extractLsb' 0 2 = fv.extractLsb' 0 2 := by
  rw [BitVec.extractLsb'_and]
  exact BitVec.and_allOnes

/-! ### The five operations (R110, R111, R113, R114, R116) -/

theorem exec_endec (b : Byte) (s : State) :
    ∃ t, exec (.endec b) s = .next t ∧ Computes [.fv] s t ∧ t.rFv = endec b :=
  ⟨_, rfl, compute_computes (by simp [Results.Within]) s, rfl⟩

theorem exec_enenc (fv : FlagVec) (s : State) :
    ∃ t, exec (.enenc fv) s = .next t ∧ Computes [.byte] s t ∧ t.rByte = enenc fv :=
  ⟨_, rfl, compute_computes (by simp [Results.Within]) s, rfl⟩

theorem exec_cfgdec (b : Byte) (s : State) :
    ∃ t, exec (.cfgdec b) s = .next t ∧ Computes [.fv] s t ∧ t.rFv = cfgdec b :=
  ⟨_, rfl, compute_computes (by simp [Results.Within]) s, rfl⟩

theorem exec_cfgenc (fv : FlagVec) (s : State) :
    ∃ t, exec (.cfgenc fv) s = .next t ∧ Computes [.byte] s t ∧ t.rByte = cfgenc fv :=
  ⟨_, rfl, compute_computes (by simp [Results.Within]) s, rfl⟩

theorem exec_stdec (b : Byte) (s : State) :
    ∃ t, exec (.stdec b) s = .next t ∧ Computes [.fv] s t ∧ t.rFv = stdec b :=
  ⟨_, rfl, compute_computes (by simp [Results.Within]) s, rfl⟩

/-- Settles O14: each bit of the result is the test of its flag's mask. -/
theorem endecUnpacksEnable : Obligations.EndecUnpacksEnable := by
  refine ⟨fun r hop => by simp [decode, hop], fun b s => ?_⟩
  obtain ⟨t, hexec, hcomputes, hfv⟩ := exec_endec b s
  have hbit {f : Flag} (hf : f ∈ enableFlags) : t.rFv.getLsbD f.place = (b &&& f.mask != 0) := by
    rw [hfv]
    exact getLsbD_place_unpackFlags enableFlags_placesMatchBits hf b
  exact ⟨t, hexec, hcomputes, hbit (f := .sai) (by decide), hbit (f := .aien) (by decide),
    hbit (f := .wen) (by decide), hbit (f := .aen) (by decide), hbit (f := .pon) (by decide)⟩

/-- Settles O15: the byte is the OR of its flags' masks, whatever their order. -/
theorem enencPacksEnable : Obligations.EnencPacksEnable := by
  refine ⟨fun r hop => by simp [decode, hop], fun fv s => ?_⟩
  obtain ⟨t, hexec, hcomputes, hbyte⟩ := exec_enenc fv s
  refine ⟨t, hexec, hcomputes, hbyte.trans ?_⟩
  simp [enenc, enableFlags, packFlags_cons, packFlags_nil, enablePacked, Flag.place, Flag.mask, BitVec.or_assoc]

/-- Settles O16 by the round trips of the two functions. -/
theorem enableRoundTrips : Obligations.EnableRoundTrips := by
  refine ⟨fun fv s s' => ?_, fun b s s' => ?_⟩
  · obtain ⟨t, hexec, -, hbyte⟩ := exec_enenc fv s
    obtain ⟨t', hexec', -, hfv⟩ := exec_endec t.rByte s'
    exact ⟨t, t', hexec, hexec', by rw [hfv, hbyte, endec_enenc]⟩
  · obtain ⟨t, hexec, -, hfv⟩ := exec_endec b s
    obtain ⟨t', hexec', -, hbyte⟩ := exec_enenc t.rFv s'
    exact ⟨t, t', hexec, hexec', by rw [hbyte, hfv, enenc_endec]⟩

/-- Settles O17: both flags have places below 2, and each bit is the test of its flag's mask. -/
theorem cfgdecUnpacksConfig : Obligations.CfgdecUnpacksConfig := by
  refine ⟨fun r hop => by simp [decode, hop], fun b s => ?_⟩
  obtain ⟨t, hexec, hcomputes, hfv⟩ := exec_cfgdec b s
  rw [cfgdec] at hfv
  refine ⟨t, hexec, hcomputes, ?_, ?_, ?_⟩ <;> rw [hfv]
  · exact extractLsb'_unpackFlags_eq_zero (by decide) b
  · exact getLsbD_place_unpackFlags configFlags_placesMatchBits (f := .agl) (by decide) b
  · exact getLsbD_place_unpackFlags configFlags_placesMatchBits (f := .wlong) (by decide) b

/-- Settles O18: the byte is the OR of its flags' masks, and no flag has a place in bits 4:2. -/
theorem cfgencPacksConfig : Obligations.CfgencPacksConfig := by
  refine ⟨fun r hop => by simp [decode, hop], fun fv s => ?_⟩
  obtain ⟨t, hexec, hcomputes, hbyte⟩ := exec_cfgenc fv s
  refine ⟨t, hexec, hcomputes, hbyte.trans ?_⟩
  simp [cfgenc, configFlags, packFlags_cons, packFlags_nil, Flag.place, Flag.mask]

/-- Settles O19 by the round trips of the two functions: `0b00011` keeps bits 1:0 and drops bits 4:2. -/
theorem configRoundTrips : Obligations.ConfigRoundTrips := by
  refine ⟨fun fv s s' => ?_, fun b s s' => ?_⟩
  · obtain ⟨t, hexec, -, hbyte⟩ := exec_cfgenc fv s
    obtain ⟨t', hexec', -, hfv⟩ := exec_cfgdec t.rByte s'
    rw [hbyte, cfgdec_cfgenc] at hfv
    refine ⟨t, t', hexec, hexec', ?_, fun hhigh => ?_⟩ <;> rw [hfv]
    · exact extractLsb'_and_three fv
    · exact and_three_eq_self_of_high_eq_zero fv hhigh
  · obtain ⟨t, hexec, -, hfv⟩ := exec_cfgdec b s
    obtain ⟨t', hexec', -, hbyte⟩ := exec_cfgenc t.rFv s'
    exact ⟨t, t', hexec, hexec', by rw [hbyte, hfv, cfgenc_cfgdec]⟩

/-- Settles O20: as for CONFIG, both flags have places below 2, and each bit is the test of its flag's mask. -/
theorem stdecUnpacksStatus : Obligations.StdecUnpacksStatus := by
  refine ⟨fun r hop => by simp [decode, hop], fun b s => ?_⟩
  obtain ⟨t, hexec, hcomputes, hfv⟩ := exec_stdec b s
  rw [stdec] at hfv
  refine ⟨t, hexec, hcomputes, ?_, ?_, ?_⟩ <;> rw [hfv]
  · exact extractLsb'_unpackFlags_eq_zero (by decide) b
  · exact getLsbD_place_unpackFlags statusFlags_placesMatchBits (f := .aint) (by decide) b
  · exact getLsbD_place_unpackFlags statusFlags_placesMatchBits (f := .avalid) (by decide) b

end Sys2Proof.Machine

/-! ## The timing converter (42_timing.md) -/

namespace Sys2Proof.Machine

/-! ### Steps, quotients and bytes (R130 to R133) -/

theorem stepOf_pos (lng : Bool) : 0 < stepOf lng := by cases lng <;> decide

theorem stepOf_bounds (lng : Bool) : 273 ≤ stepOf lng ∧ stepOf lng ≤ 3276 := by cases lng <;> decide

/-- The range of R133, as the number of whole steps in the request: the 256 that a byte encodes. -/
theorem timeInRange_iff_quotient {ms : Int} {lng : Bool} :
    TimeInRange ms lng ↔ 1 ≤ ms / stepOf lng ∧ ms / stepOf lng < 257 := by
  rw [TimeInRange, Int.le_ediv_iff_mul_le (stepOf_pos lng), Int.ediv_lt_iff_lt_mul (stepOf_pos lng), one_mul]

/-- Dividing the time a byte encodes by the step gives its number of steps back: nothing is cut off. -/
theorem byteTime_ediv_stepOf (b : Byte) (lng : Bool) :
    (256 - (b.toNat : Int)) * stepOf lng / stepOf lng = 256 - b.toNat :=
  Int.mul_ediv_cancel _ (stepOf_pos lng).ne'

theorem timeInRange_byteTime (b : Byte) (lng : Bool) : TimeInRange ((256 - (b.toNat : Int)) * stepOf lng) lng := by
  rw [timeInRange_iff_quotient, byteTime_ediv_stepOf]
  have hb := b.isLt
  omega

/-- Truncation and floor agree wherever either quotient is positive: they differ on negative requests only, where neither
is (R139). -/
theorem tdiv_stepOf_eq_ediv {ms : Int} {lng : Bool} (h : 0 < ms.tdiv (stepOf lng) ∨ 0 < ms / stepOf lng) :
    ms.tdiv (stepOf lng) = ms / stepOf lng := by
  have hpos := stepOf_pos lng
  apply Int.tdiv_eq_ediv_of_nonneg
  by_contra hneg
  have hfloor : ms / stepOf lng < 0 := Int.ediv_neg_of_neg_of_pos (by omega) hpos
  have htrunc : 0 ≤ (-ms).tdiv (stepOf lng) := Int.tdiv_nonneg (by omega) hpos.le
  rw [Int.neg_tdiv] at htrunc
  omega

/-! ### T2MS (R131) -/

theorem exec_t2ms (b : Byte) (lng : Bool) (s : State) :
    ∃ t, exec (.t2ms b lng) s = .next t ∧ Computes [.ms] s t ∧
      (t.rMs.toNat : Int) = (256 - (b.toNat : Int)) * stepOf lng :=
  ⟨_, rfl, compute_computes (by simp [Results.Within]) s, t2ms_toNat b lng⟩

/-! ### MS2T (R132, R133) -/

theorem exec_ms2t_of_inRange {ms : Int} {lng : Bool} (h : TimeInRange ms lng) (s : State) :
    ∃ t, exec (.ms2t ms lng) s = .next t ∧ Computes [.byte, .ms] s t ∧
      (t.rByte.toNat : Int) = 256 - ms / stepOf lng ∧ (t.rMs.toNat : Int) = ms / stepOf lng * stepOf lng := by
  obtain ⟨b, achieved, hms, hbyte, hachieved⟩ := ms2t_of_inRange h
  exact ⟨compute { byte := some b, ms := some achieved } s, by simp [exec, execMs2t, hms],
    compute_computes (by simp [Results.Within]) s, hbyte, hachieved⟩

theorem exec_ms2t_of_not_inRange {ms : Int} {lng : Bool} (h : ¬ TimeInRange ms lng) (s : State) :
    ∃ t, exec (.ms2t ms lng) s = .next t ∧ Rejects 1 s t :=
  ⟨reject .rangeError s, by simp [exec, execMs2t, ms2t_of_not_inRange h], reject_rejects .rangeError s⟩

/-- Everything an MS2T that answers can be: a success on a request in range, or RangeError on one out of range. -/
theorem exec_ms2t_cases {ms : Int} {lng : Bool} {s t : State} (hexec : exec (.ms2t ms lng) s = .next t) :
    (TimeInRange ms lng ∧ t.err = 0 ∧ (t.rByte.toNat : Int) = 256 - ms / stepOf lng ∧
      (t.rMs.toNat : Int) = ms / stepOf lng * stepOf lng) ∨ (¬ TimeInRange ms lng ∧ t.err = 1) := by
  by_cases h : TimeInRange ms lng
  · obtain ⟨t', hexec', ⟨herr, -⟩, hvalues⟩ := exec_ms2t_of_inRange h s
    cases hexec.symm.trans hexec'
    exact .inl ⟨h, herr, hvalues⟩
  · obtain ⟨t', hexec', ⟨herr, -⟩⟩ := exec_ms2t_of_not_inRange h s
    cases hexec.symm.trans hexec'
    exact .inr ⟨h, herr⟩

theorem exec_ms2t_success {ms : Int} {lng : Bool} {s t : State} (hexec : exec (.ms2t ms lng) s = .next t)
    (herr : t.err = 0) :
    (t.rByte.toNat : Int) = 256 - ms / stepOf lng ∧ (t.rMs.toNat : Int) = ms / stepOf lng * stepOf lng := by
  obtain ⟨-, -, hvalues⟩ | ⟨-, herr'⟩ := exec_ms2t_cases hexec
  · exact hvalues
  · exact absurd (herr.symm.trans herr') (by decide)

/-- On success the achieved time is the one the stored byte encodes. -/
theorem rMs_eq_byteTime_of_exec_ms2t {ms : Int} {lng : Bool} {s t : State} (hexec : exec (.ms2t ms lng) s = .next t)
    (herr : t.err = 0) : (t.rMs.toNat : Int) = (256 - (t.rByte.toNat : Int)) * stepOf lng := by
  obtain ⟨hbyte, hms⟩ := exec_ms2t_success hexec herr
  rw [hms, hbyte, sub_sub_cancel]

/-- MS2T may be described by any quotient that is the floor wherever either of the two is positive, since a quotient
that is not positive is out of range. -/
theorem exec_ms2t_by_quotient {ms q : Int} {lng : Bool} (hq : 0 < q ∨ 0 < ms / stepOf lng → q = ms / stepOf lng)
    (s : State) :
    (256 - q < 0 ∨ 256 - q > 255 → ∃ t, exec (.ms2t ms lng) s = .next t ∧ Rejects 1 s t) ∧
    (0 ≤ 256 - q → 256 - q ≤ 255 → ∃ t, exec (.ms2t ms lng) s = .next t ∧ Computes [.byte, .ms] s t ∧
      (t.rByte.toNat : Int) = 256 - q ∧ (t.rMs.toNat : Int) = q * stepOf lng) := by
  have hrange : TimeInRange ms lng ↔ 1 ≤ q ∧ q < 257 := by
    rw [timeInRange_iff_quotient]
    omega
  refine ⟨fun hout => exec_ms2t_of_not_inRange (fun h => ?_) s, fun hlow hhigh => ?_⟩
  · obtain ⟨hlow, hhigh⟩ := hrange.1 h
    omega
  · rw [hq (.inl (by omega))] at hrange hlow hhigh ⊢
    exact exec_ms2t_of_inRange (hrange.2 (by omega)) s

/-! ### The times the converter gives (R138) -/

theorem extractLsb'_high_eq_zero {x : BitVec 32} (h : x.toNat < 2 ^ 20) : x.extractLsb' 20 12 = 0 := by
  apply BitVec.eq_of_toNat_eq
  rw [BitVec.extractLsb'_toNat, Nat.shiftRight_eq_div_pow, Nat.div_eq_of_lt h]
  rfl

/-- A time that a byte encodes is 1 to 256 steps of 273 or 3276 units. -/
theorem byteTime_bounds {x : BitVec 32} {b : Byte} {lng : Bool}
    (h : (x.toNat : Int) = (256 - (b.toNat : Int)) * stepOf lng) :
    273 ≤ x.toNat ∧ x.toNat ≤ 838656 ∧ x.extractLsb' 20 12 = 0 := by
  have hb := b.isLt
  obtain ⟨hlow, hhigh⟩ : 273 ≤ x.toNat ∧ x.toNat ≤ 838656 := by
    cases lng with
    | false => change _ = _ * (273 : Int) at h; omega
    | true => change _ = _ * (3276 : Int) at h; omega
  exact ⟨hlow, hhigh, extractLsb'_high_eq_zero (by omega)⟩

/-! ### The real-number formula (R137) -/

/-- The real formula's quotient is the floor of the driven integer over the step: 2.73 ms is 273 units. -/
theorem floor_realQuotient (m : ℝ) (lng : Bool) :
    ⌊m / (2.73 * (if lng then 12 else 1))⌋ = ⌊100 * m⌋ / stepOf lng := by
  have hunits : m / (2.73 * (if lng then 12 else 1)) = 100 * m / (stepUnits lng : ℝ) := by
    cases lng with
    | false => norm_num [stepUnits, tUnit, longMult]; ring
    | true => norm_num [stepUnits, tUnit, longMult]; ring
  rw [hunits, Int.floor_div_natCast, stepUnits_eq]

/-- No time that a 32-bit port cannot carry is in range. -/
theorem not_timeInRange_of_beyond_port {m : ℝ} (lng : Bool) (h : 100 * m < -2 ^ 31 ∨ 2 ^ 31 ≤ 100 * m) :
    ¬ TimeInRange ⌊100 * m⌋ lng := by
  rintro ⟨hlow, hhigh⟩
  obtain ⟨hmin, hmax⟩ := stepOf_bounds lng
  obtain h | h := h
  · have : ⌊100 * m⌋ < -2 ^ 31 := Int.floor_lt.2 (by exact_mod_cast h)
    omega
  · have : 2 ^ 31 ≤ ⌊100 * m⌋ := Int.le_floor.2 (by exact_mod_cast h)
    omega

/-! ### The statements -/

/-- Settles O22: the quotient is the floor itself. -/
theorem ms2tQuantizesOrRejects : Obligations.Ms2tQuantizesOrRejects := by
  refine ⟨fun r hop => by simp [decode, hop, readSigned], fun ms lng s => ?_⟩
  rw [Int.fdiv_eq_ediv_of_nonneg ms (stepOf_pos lng).le]
  exact exec_ms2t_by_quotient (fun _ => rfl) s

/-- Settles O23, by the two ways MS2T ends. -/
theorem ms2tLegalRange : Obligations.Ms2tLegalRange := by
  intro ms lng s t hexec
  change (t.err = 0 ↔ TimeInRange ms lng) ∧ _
  obtain ⟨hin, herr, -⟩ | ⟨hout, herr⟩ := exec_ms2t_cases hexec
  · exact ⟨iff_of_true herr hin, .inl herr⟩
  · exact ⟨iff_of_false (by rw [herr]; decide) hout, .inr herr⟩

/-- Settles O24: the floor times the step is at most the request, and one step more is above it. -/
theorem quantizationIsTowardShorterTime : Obligations.QuantizationIsTowardShorterTime := by
  intro ms lng s t hexec herr
  obtain ⟨hbyte, hms⟩ := exec_ms2t_success hexec herr
  have hle : ms / stepOf lng * stepOf lng ≤ ms := Int.ediv_mul_le ms (stepOf_pos lng).ne'
  have hlt : ms < (ms / stepOf lng + 1) * stepOf lng := Int.lt_ediv_add_one_mul_self ms (stepOf_pos lng)
  have hlower : 256 - (256 - ms / stepOf lng - 1) = ms / stepOf lng + 1 := by ring
  rw [hms, hbyte, sub_sub_cancel, hlower]
  exact ⟨hle, by rwa [add_one_mul] at hlt, hle, hlt⟩

/-- Settles O25: a byte's time is a whole number of steps, and what a request achieves is its byte's time. -/
theorem timeRoundTripIsExact : Obligations.TimeRoundTripIsExact := by
  refine ⟨fun b lng s s' => ?_, fun ms lng s s' t hexec herr => ?_⟩
  · obtain ⟨t, hexec, -, htime⟩ := exec_t2ms b lng s
    have hin := timeInRange_byteTime b lng
    rw [← htime] at hin
    obtain ⟨t', hexec', ⟨herr, -⟩, hbyte, hms⟩ := exec_ms2t_of_inRange hin s'
    rw [htime, byteTime_ediv_stepOf] at hbyte hms
    rw [← htime] at hms
    exact ⟨t, t', hexec, hexec', herr, BitVec.eq_of_toNat_eq (by omega), BitVec.eq_of_toNat_eq (by omega)⟩
  · obtain ⟨t', hexec', -, htime⟩ := exec_t2ms t.rByte lng s'
    rw [← rMs_eq_byteTime_of_exec_ms2t hexec herr] at htime
    refine ⟨t', hexec', BitVec.eq_of_toNat_eq (by omega), ?_⟩
    rw [htime]
    exact (quantizationIsTowardShorterTime ms lng s t hexec herr).1

/-- Settles O26: the floor of the real quotient is the floor MS2T takes. -/
theorem ms2tMatchesRealFormula : Obligations.Ms2tMatchesRealFormula := by
  refine ⟨fun m n _ => ?_, fun m lng s => ?_, fun m lng s h => ?_⟩
  · rw [Int.floor_div_natCast, Int.fdiv_eq_ediv_of_nonneg _ n.cast_nonneg]
  · obtain ⟨hreject, hsucceed⟩ := exec_ms2t_by_quotient (fun _ => floor_realQuotient m lng) s
    refine ⟨hreject, fun hlow hhigh => ?_⟩
    obtain ⟨t, hexec, ⟨herr, -⟩, hbyte, -⟩ := hsucceed hlow hhigh
    exact ⟨t, hexec, herr, hbyte⟩
  · exact exec_ms2t_of_not_inRange (not_timeInRange_of_beyond_port lng h) s

/-- Settles O27: truncation is the floor wherever either quotient is positive. -/
theorem truncationGivesTheSameOutcome : Obligations.TruncationGivesTheSameOutcome :=
  fun _ _ s => exec_ms2t_by_quotient tdiv_stepOf_eq_ediv s

/-- Settles O28: both operations give only times that a byte encodes. -/
theorem timesFitTwentyBits : Obligations.TimesFitTwentyBits := by
  refine ⟨fun b lng s t hexec => ?_, fun ms lng s t hexec herr => ?_⟩
  · obtain ⟨t', hexec', -, htime⟩ := exec_t2ms b lng s
    cases hexec.symm.trans hexec'
    exact byteTime_bounds htime
  · exact byteTime_bounds (rMs_eq_byteTime_of_exec_ms2t hexec herr)

/-- Settles O21, by the equation of T2MS. -/
theorem t2msGivesEncodedTime : Obligations.T2msGivesEncodedTime :=
  ⟨fun r hop => by simp [decode, hop], exec_t2ms⟩

end Sys2Proof.Machine

/-! ## The enumeration tables (43_enum_tables.md) -/

namespace Sys2Proof.Machine

/-! ### The values of a table

Both operations' rules speak of a table's entries as integers, and of an index by the value found there. -/

/-- The entries of a table, as the integers that encode searches for. -/
def tableValues (table : List Byte) : List Int := table.map (fun e => (e.toNat : Int))

theorem tableValues_gainTable : tableValues gainTable = [1, 8, 16, 120] := rfl

theorem isPersCount_iff_mem_tableValues {rom : Rom} {v : Int} :
    IsPersCount rom v ↔ v ∈ tableValues (persCounts rom) := List.mem_map.symm

/-- A strictly increasing table holds no value twice (R156). -/
theorem tableIndex_unique {table : List Byte} {v : Int} {n i : Nat}
    (hinc : table.Pairwise (fun a b => a.toNat < b.toNat)) (hn : (tableValues table)[n]? = some v)
    (hi : (tableValues table)[i]? = some v) : n = i := by
  have hnodup : (tableValues table).Nodup := List.pairwise_map.2 (hinc.imp fun hlt => by omega)
  exact (List.getElem?_inj (List.getElem?_eq_some_iff.1 hn).1 hnodup).1 (hn.trans hi.symm)

theorem persCounts_length (rom : Rom) : (persCounts rom).length = 16 := persTable_length rom

/-! ### The mask of an index (R152, R154) -/

theorem and_0x0F_toNat (b : Byte) : (b &&& 0x0F).toNat = b.toNat % 16 :=
  Nat.and_two_pow_sub_one_eq_mod b.toNat 4

theorem and_0x03_toNat (b : Byte) : (b &&& 0x03).toNat = b.toNat % 4 :=
  Nat.and_two_pow_sub_one_eq_mod b.toNat 2

/-! ### Decode (R152, R154) -/

theorem persCounts_getElem?_persdec (rom : Rom) (b : Byte) :
    (persCounts rom)[b.toNat % 16]? = some (persdec rom b) := by
  rw [persdec, and_0x0F_toNat]
  exact tableDecode_eq (by rw [persCounts_length]; omega)

theorem gainTable_getElem?_gaindec (b : Byte) : gainTable[b.toNat % 4]? = some (gaindec b) := by
  rw [gaindec, and_0x03_toNat]
  exact tableDecode_eq (Nat.mod_lt _ (by decide))

theorem exec_persdec (b : Byte) (s : State) :
    ∃ t, exec (.persdec b) s = .next t ∧ Computes [.val] s t ∧ (persCounts s.rom)[b.toNat % 16]? = some t.rVal :=
  ⟨_, rfl, compute_computes (by simp [Results.Within]) s, persCounts_getElem?_persdec s.rom b⟩

theorem exec_gaindec (b : Byte) (s : State) :
    ∃ t, exec (.gaindec b) s = .next t ∧ Computes [.val] s t ∧ gainTable[b.toNat % 4]? = some t.rVal :=
  ⟨_, rfl, compute_computes (by simp [Results.Within]) s, gainTable_getElem?_gaindec b⟩

/-! ### Encode (R153, R155) -/

section
variable {table : List Byte} {v : Int}

/-- A value in the table is encoded as an index at which it stands. The index fits the byte port. -/
theorem computeField_of_mem (hlen : table.length ≤ 256) (hv : v ∈ tableValues table) (s : State) :
    Computes [.byte] s (computeField (tableEncode table v) s) ∧
      (tableValues table)[(computeField (tableEncode table v) s).rByte.toNat]? = some v := by
  obtain ⟨n, hn, henc, hvalue⟩ := tableEncode_of_mem (List.mem_map.1 hv)
  have hfits : (BitVec.ofNat 8 n).toNat = n := Nat.mod_eq_of_lt (by omega)
  rw [henc]
  refine ⟨compute_computes (by simp [Results.Within]) s, ?_⟩
  change (tableValues table)[(BitVec.ofNat 8 n).toNat]? = some v
  rw [hfits, tableValues, List.getElem?_map, hvalue]

/-- A value outside the table is rejected with UnsupportedValueError. -/
theorem computeField_of_not_mem (hv : v ∉ tableValues table) (s : State) :
    Rejects 2 s (computeField (tableEncode table v) s) := by
  rw [tableEncode_of_not_mem (mt List.mem_map.2 hv)]
  exact reject_rejects .unsupportedValueError s

end

section
variable {v : Int} {s : State}

theorem exec_persenc_of_isPersCount (hv : IsPersCount s.rom v) :
    ∃ t, exec (.persenc v) s = .next t ∧ Computes [.byte] s t ∧
      (tableValues (persCounts s.rom))[t.rByte.toNat]? = some v :=
  ⟨_, rfl, computeField_of_mem (by rw [persCounts_length]; decide) (isPersCount_iff_mem_tableValues.1 hv) s⟩

theorem exec_persenc_of_not_isPersCount (hv : ¬ IsPersCount s.rom v) :
    ∃ t, exec (.persenc v) s = .next t ∧ Rejects 2 s t :=
  ⟨_, rfl, computeField_of_not_mem (mt isPersCount_iff_mem_tableValues.2 hv) s⟩

theorem exec_gainenc_of_mem (hv : v ∈ tableValues gainTable) (s : State) :
    ∃ t, exec (.gainenc v) s = .next t ∧ Computes [.byte] s t ∧
      (tableValues gainTable)[t.rByte.toNat]? = some v :=
  ⟨_, rfl, computeField_of_mem (by decide) hv s⟩

theorem exec_gainenc_of_not_mem (hv : v ∉ tableValues gainTable) (s : State) :
    ∃ t, exec (.gainenc v) s = .next t ∧ Rejects 2 s t :=
  ⟨_, rfl, computeField_of_not_mem hv s⟩

end

/-! ### Decode and encode undo each other (R156) -/

section
variable {table : List Byte} {i n k : Nat} {v : Int} {e : Byte}

theorem lt_length_of_tableValues_getElem? (h : (tableValues table)[n]? = some v) : n < table.length := by
  obtain ⟨hn, -⟩ := List.getElem?_eq_some_iff.1 h
  rwa [tableValues, List.length_map] at hn

/-- An index is below the table's size, so the mask of decode leaves it alone, and the entry there is the value that was
encoded. -/
theorem decoded_eq_of_encoded (hk : table.length = k) (henc : (tableValues table)[n]? = some v)
    (hdec : table[n % k]? = some e) : (e.toNat : Int) = v := by
  rw [Nat.mod_eq_of_lt (hk ▸ lt_length_of_tableValues_getElem? henc)] at hdec
  rw [tableValues, List.getElem?_map, hdec] at henc
  exact Option.some.inj henc

/-- In a strictly increasing table the entry decoded stands at one index only, the one that encode gives back. -/
theorem encoded_eq_of_decoded (hinc : table.Pairwise (fun a b => a.toNat < b.toNat)) (hdec : table[i]? = some e)
    (henc : (tableValues table)[n]? = some (e.toNat : Int)) : n = i := by
  have hi : (tableValues table)[i]? = some (e.toNat : Int) := by
    rw [tableValues, List.getElem?_map, hdec]
    rfl
  exact tableIndex_unique hinc henc hi

theorem mem_tableValues_of_getElem? (h : table[i]? = some e) : (e.toNat : Int) ∈ tableValues table :=
  List.mem_map_of_mem (List.mem_of_getElem? h)

end

theorem gainTable_increasing : gainTable.Pairwise (fun a b => a.toNat < b.toNat) := by decide

/-! ### The statements -/

/-- Settles O29, by the lookup of PERSDEC. -/
theorem persdecLooksUpCount : Obligations.PersdecLooksUpCount :=
  ⟨fun r hop => by simp [decode, hop], exec_persdec⟩

/-- Settles O31, by the lookup of GAINDEC. -/
theorem gaindecLooksUpMultiplier : Obligations.GaindecLooksUpMultiplier :=
  ⟨fun r hop => by simp [decode, hop], exec_gaindec⟩

/-- Settles O30: the index that PERSENC drives is one of the table's 16. -/
theorem persencFindsIndexOrRejects : Obligations.PersencFindsIndexOrRejects := by
  refine ⟨fun r hop => by simp [decode, hop, readSigned], fun v s => ⟨fun hv => ?_, exec_persenc_of_not_isPersCount⟩⟩
  obtain ⟨t, hexec, hcomputes, hvalue⟩ := exec_persenc_of_isPersCount hv
  have hlt := lt_length_of_tableValues_getElem? hvalue
  rw [persCounts_length] at hlt
  rw [tableValues, List.getElem?_map] at hvalue
  exact ⟨t, hexec, hcomputes, hlt, hvalue⟩

/-- Settles O32: the index that GAINENC drives is the only one of the multiplier, since the table increases. -/
theorem gainencFindsIndexOrRejects : Obligations.GainencFindsIndexOrRejects := by
  refine ⟨fun r hop => by simp [decode, hop, readSigned], fun v s => ?_⟩
  rw [← tableValues_gainTable]
  refine ⟨fun i hi => ?_, fun hv => exec_gainenc_of_not_mem hv s⟩
  obtain ⟨t, hexec, hcomputes, hvalue⟩ := exec_gainenc_of_mem (List.mem_of_getElem? hi) s
  exact ⟨t, hexec, hcomputes, tableIndex_unique gainTable_increasing hvalue hi⟩

/-- Settles O33: an index survives the mask of decode, and a strictly increasing table has one index per value. -/
theorem enumerationTableLaws : Obligations.EnumerationTableLaws := by
  refine ⟨gainTable_increasing, fun v s s' hv => ?_, fun v s s' hrom hv => ?_, fun b s s' => ?_,
    fun b s s' hrom hinc => ?_⟩
  · obtain ⟨t, hexec, -, henc⟩ := exec_gainenc_of_mem hv s
    obtain ⟨t', hexec', -, hdec⟩ := exec_gaindec t.rByte s'
    exact ⟨t, t', hexec, hexec', decoded_eq_of_encoded rfl henc hdec⟩
  · obtain ⟨t, hexec, -, henc⟩ := exec_persenc_of_isPersCount hv
    obtain ⟨t', hexec', -, hdec⟩ := exec_persdec t.rByte s'
    rw [hrom] at hdec
    exact ⟨t, t', hexec, hexec', decoded_eq_of_encoded (persCounts_length s.rom) henc hdec⟩
  · obtain ⟨t, hexec, -, hdec⟩ := exec_gaindec b s
    obtain ⟨t', hexec', ⟨herr, -⟩, henc⟩ := exec_gainenc_of_mem (mem_tableValues_of_getElem? hdec) s'
    refine ⟨t, t', hexec, hexec', herr, BitVec.eq_of_toNat_eq ?_⟩
    rw [and_0x03_toNat]
    exact encoded_eq_of_decoded gainTable_increasing hdec henc
  · obtain ⟨t, hexec, -, hdec⟩ := exec_persdec b s
    rw [← hrom] at hinc hdec
    obtain ⟨t', hexec', ⟨herr, -⟩, henc⟩ :=
      exec_persenc_of_isPersCount (isPersCount_iff_mem_tableValues.2 (mem_tableValues_of_getElem? hdec))
    refine ⟨t, t', hexec, hexec', herr, BitVec.eq_of_toNat_eq ?_⟩
    rw [and_0x0F_toNat]
    exact encoded_eq_of_decoded hinc hdec henc

end Sys2Proof.Machine

/-! ## The register-access front end (44_register_ops.md) -/

namespace Sys2Proof.Machine

/-! ### How an operation with a transaction ends (R170, R171) -/

/-- The command byte of a byte register does not depend on the ROM (R78). -/
theorem regCommand_of_byte {reg : Reg} {cmd : Byte} (hreg : reg.isWord = false)
    (hcmd : commandByte kindRepeated reg.address = cmd) (rom : Rom) : regCommand rom reg = cmd := by
  simp [regCommand, Reg.kind, hreg, hcmd]

section
variable {i : Instr} {s : State} {ports : List ResultPort} {cmd : Byte} {Holds : State → Prop}

/-- Whatever the success with the value read brings about holds if the transport answers. -/
theorem exec_transact_ends {x : Txn} {results : Word16 → Results}
    (hexec : exec i s = .next (transact x results s)) (hports : ∀ v, (results v).Within ports)
    (hholds : ∀ u, Holds (succeed (results (nextResponse s).tRdata) u)) :
    ((nextResponse s).tOk = true → ∃ t, exec i s = .next t ∧ Transacts x ports s t ∧ Holds t) ∧
    ((nextResponse s).tOk = false → ∃ t, exec i s = .next t ∧ TransportFails x s t) := by
  refine ⟨fun hok => ⟨_, hexec, transact_transacts hports hok, ?_⟩, fun hfail => ⟨_, hexec, transact_fails hfail⟩⟩
  rw [transact_of_ok x results hok]
  exact hholds _

theorem exec_readByte_ends {reg : Reg} {results : Byte → Results}
    (hexec : exec i s = .next (readByte reg results s))
    (hholds : ∀ u, Holds (succeed (results ((nextResponse s).tRdata.extractLsb' 0 8)) u))
    (hcmd : ∀ rom, regCommand rom reg = cmd := by exact regCommand_of_byte rfl rfl)
    (hports : ∀ v, (results v).Within ports := by simp [Results.Within]) :
    ((nextResponse s).tOk = true →
      ∃ t, exec i s = .next t ∧ Transacts ⟨false, false, cmd, 0⟩ ports s t ∧ Holds t) ∧
    ((nextResponse s).tOk = false → ∃ t, exec i s = .next t ∧ TransportFails ⟨false, false, cmd, 0⟩ s t) := by
  rw [readByte, hcmd] at hexec
  rw [← BitVec.setWidth_eq_extractLsb' (by decide)] at hholds
  exact exec_transact_ends hexec (fun v => hports (v.setWidth 8)) hholds

theorem writes_of_exec_writeByte {reg : Reg} {v : Byte} {wdata : Word16} {results : Results}
    (hexec : exec i s = .next (writeByte reg v results s)) (hdata : v.setWidth 16 = wdata)
    (hholds : ∀ u, Holds (succeed results u))
    (hcmd : ∀ rom, regCommand rom reg = cmd := by exact regCommand_of_byte rfl rfl)
    (hports : results.Within ports := by simp [Results.Within]) :
    Writes i (fun _ => ⟨true, false, cmd, wdata⟩) ports Holds s := by
  rw [writeByte, hcmd, hdata] at hexec
  exact exec_transact_ends hexec (fun _ => hports) hholds

end

/-- A byte read whose results do not depend on the state, as the statements put it. -/
theorem readsByte_of_exec {i : Instr} {cmd : Byte} {ports : List ResultPort} {Holds : Byte → State → Prop}
    (reg : Reg) {results : Byte → Results} (hexec : ∀ s, exec i s = .next (readByte reg results s))
    (hholds : ∀ v u, Holds v (succeed (results v) u))
    (hcmd : ∀ rom, regCommand rom reg = cmd := by exact regCommand_of_byte rfl rfl)
    (hports : ∀ v, (results v).Within ports := by simp [Results.Within]) : ReadsByte i cmd ports Holds :=
  fun s => exec_readByte_ends (hexec s) (hholds _) hcmd hports

theorem readsWord_of_exec {i : Instr} {addr : Byte} (reg : Reg)
    (hexec : ∀ s, exec i s = .next (readWord reg (fun v => { word := some v }) s))
    (hcmd : ∀ rom, regCommand rom reg = wordCommand rom addr) : ReadsWord i addr := fun s => by
  have hs := hexec s
  rw [readWord, hcmd] at hs
  exact exec_transact_ends hs (by simp [Results.Within]) fun _ => rfl

theorem writes_of_exec_writeWord {i : Instr} {s : State} {addr : Byte} {w : Word16} (reg : Reg)
    (hexec : exec i s = .next (writeWord reg w {} s)) (hcmd : regCommand s.rom reg = wordCommand s.rom addr) :
    Writes i (fun rom => ⟨true, true, wordCommand rom addr, w⟩) [] (fun _ => True) s := by
  rw [writeWord, hcmd] at hexec
  exact exec_transact_ends hexec (by simp [Results.Within]) fun _ => trivial

/-! ### The flags of a byte read (R172, R184, R190) -/

/-- Decode moves the flag's bit to the flag's place. -/
theorem getLsbD_place_unpackFlags_eq_bit {flags : List Flag} (h : PlacesMatchBits flags) {f : Flag}
    (hf : f ∈ flags) (b : Byte) : (unpackFlags flags b).getLsbD f.place = b.getLsbD f.bit := by
  rw [getLsbD_place_unpackFlags h hf, Bool.eq_iff_iff, bne_iff_ne, and_mask_ne_zero_iff]

theorem getLsbD_endec {f : Flag} (b : Byte) (hf : f ∈ enableFlags := by decide) :
    (endec b).getLsbD f.place = b.getLsbD f.bit :=
  getLsbD_place_unpackFlags_eq_bit enableFlags_placesMatchBits hf b

theorem getLsbD_cfgdec {f : Flag} (b : Byte) (hf : f ∈ configFlags := by decide) :
    (cfgdec b).getLsbD f.place = b.getLsbD f.bit :=
  getLsbD_place_unpackFlags_eq_bit configFlags_placesMatchBits hf b

theorem getLsbD_stdec {f : Flag} (b : Byte) (hf : f ∈ statusFlags := by decide) :
    (stdec b).getLsbD f.place = b.getLsbD f.bit :=
  getLsbD_place_unpackFlags_eq_bit statusFlags_placesMatchBits hf b

/-! ### The packed flags of a byte write (R173, R185) -/

/-- The byte ENENC drives is the packed one. -/
theorem enenc_eq_enablePacked (fv : FlagVec) : enenc fv = enablePacked fv := by
  obtain ⟨-, hpacks⟩ := enencPacksEnable
  obtain ⟨t, hexec, -, hpacked⟩ := hpacks fv State.reset
  obtain ⟨t', hexec', -, hbyte⟩ := exec_enenc fv State.reset
  cases hexec.symm.trans hexec'
  exact hbyte.symm.trans hpacked

/-- The byte of CFGENC on the data port: each flag's mask is carried over to the wider port. -/
theorem cfgenc_setWidth (fv : FlagVec) : (cfgenc fv).setWidth 16 =
    (if fv.getLsbD 1 then 0x0004 else 0) ||| (if fv.getLsbD 0 then 0x0002 else 0) := by
  obtain ⟨-, hpacks⟩ := cfgencPacksConfig
  obtain ⟨t, hexec, -, hpacked⟩ := hpacks fv State.reset
  obtain ⟨t', hexec', -, hbyte⟩ := exec_cfgenc fv State.reset
  cases hexec.symm.trans hexec'
  rw [← hbyte, hpacked, BitVec.setWidth_or, apply_ite (BitVec.setWidth 16), apply_ite (BitVec.setWidth 16)]
  rfl

/-! ### Writes of a time (R175, R177) -/

theorem setWidth_eq_ofInt_of_toNat {b : Byte} {v : Int} (h : (b.toNat : Int) = v) :
    b.setWidth 16 = BitVec.ofInt 16 v := by
  rw [← h, BitVec.ofInt_natCast, BitVec.ofNat_toNat]

/-- The byte written and the time driven are those MS2T gives; out of range there is no byte to write. -/
theorem writesTime_of_exec {i : Instr} {cmd : Byte} {ms : Int} {lng : Bool} {s : State} (reg : Reg)
    (hexec : exec i s = .next (writeTime reg ms lng s))
    (hcmd : ∀ rom, regCommand rom reg = cmd := by exact regCommand_of_byte rfl rfl) :
    WritesTime i cmd ms lng s := by
  rw [WritesTime, Int.fdiv_eq_ediv_of_nonneg ms (stepOf_pos lng).le]
  refine ⟨fun hout => ?_, fun hin => ?_⟩
  · rw [writeTime, ms2t_of_not_inRange hout] at hexec
    exact ⟨_, hexec, reject_rejects .rangeError s⟩
  · obtain ⟨b, achieved, hms, hbyte, hachieved⟩ := ms2t_of_inRange hin
    rw [writeTime, hms] at hexec
    exact writes_of_exec_writeByte hexec (setWidth_eq_ofInt_of_toNat hbyte) (fun _ => ⟨hbyte, hachieved⟩) hcmd

/-! ### Writes of an enumerated value (R183, R187) -/

section
variable {i : Instr} {cmd : Byte} {table : List Byte} {v : Int} {s : State} {reg : Reg}
  (hexec : exec i s = .next (writeField reg (tableEncode table v) s))
include hexec

/-- A value in the table is written as an index at which it stands. The index fits the byte. -/
theorem writes_index_of_mem (hlen : table.length ≤ 256) (hv : v ∈ tableValues table)
    (hcmd : ∀ rom, regCommand rom reg = cmd := by exact regCommand_of_byte rfl rfl) :
    ∃ n, (tableValues table)[n]? = some v ∧
      Writes i (fun _ => ⟨true, false, cmd, BitVec.ofNat 16 n⟩) [] (fun _ => True) s := by
  obtain ⟨n, hn, henc, hvalue⟩ := tableEncode_of_mem (List.mem_map.1 hv)
  rw [henc] at hexec
  refine ⟨n, by rw [tableValues, List.getElem?_map, hvalue], ?_⟩
  exact writes_of_exec_writeByte hexec (BitVec.setWidth_ofNat_of_le_of_lt (by decide) (by omega))
    (fun _ => trivial) hcmd

/-- A value outside the table is rejected with UnsupportedValueError. -/
theorem writeField_rejects_of_not_mem (hv : v ∉ tableValues table) : ∃ t, exec i s = .next t ∧ Rejects 2 s t := by
  rw [tableEncode_of_not_mem (mt List.mem_map.2 hv)] at hexec
  exact ⟨_, hexec, reject_rejects .unsupportedValueError s⟩

end

/-! ### The kind of a transaction (R71, R170) -/

/-- Bits 6:5 of a command byte are its kind. -/
theorem extractLsb'_kind_append (kind : BitVec 2) (addr : BitVec 5) :
    (1#1 ++ kind ++ addr).extractLsb' 5 2 = kind := by
  have hbit : (1#1 ++ kind ++ addr).getLsbD 7 = true := by
    rw [getLsbD_seven_iff, append_fields_toNat]
    omega
  exact (append_fields_inj (append_own_fields hbit)).1

/-- A legal transaction is of the kind of its register's width: repeated-byte or auto-increment. -/
theorem LegalTxn.kind {rom : Rom} {x : Txn} (h : LegalTxn rom x) :
    x.cmd.extractLsb' 5 2 = rom.kindAutoinc ∨ x.cmd.extractLsb' 5 2 = 0b00 := by
  obtain ⟨d, -, hcmd, -⟩ := h
  rw [hcmd, extractLsb'_kind_append]
  cases d.word with
  | true => exact .inl rfl
  | false => exact .inr rfl

/-! ### The statements -/

/-- Settles O35: each is a byte read that drives the decoded flags, each at the bit of its mask. -/
theorem flagReadsDriveFlags : Obligations.FlagReadsDriveFlags := by
  refine ⟨fun r hop => by simp [decode, hop], fun r hop => by simp [decode, hop], fun r hop => by simp [decode, hop],
    ?_, ?_, ?_⟩
  · refine readsByte_of_exec .enable (fun _ => rfl) fun v _ => ?_
    exact ⟨getLsbD_endec (f := .sai) v, getLsbD_endec (f := .aien) v, getLsbD_endec (f := .wen) v,
      getLsbD_endec (f := .aen) v, getLsbD_endec (f := .pon) v⟩
  · refine readsByte_of_exec .config (fun _ => rfl) fun v _ => ?_
    exact ⟨extractLsb'_unpackFlags_eq_zero (by decide) v, getLsbD_cfgdec (f := .agl) v,
      getLsbD_cfgdec (f := .wlong) v⟩
  · refine readsByte_of_exec .status (fun _ => rfl) fun v _ => ?_
    exact ⟨extractLsb'_unpackFlags_eq_zero (by decide) v, getLsbD_stdec (f := .aint) v,
      getLsbD_stdec (f := .avalid) v⟩

/-- Settles O36: the byte written is the one ENENC and CFGENC drive. -/
theorem flagWritesWritePackedByte : Obligations.FlagWritesWritePackedByte := by
  refine ⟨fun r hop => by simp [decode, hop], fun r hop => by simp [decode, hop], fun fv s => ?_, fun fv s => ?_⟩
  · exact writes_of_exec_writeByte (reg := .enable) rfl (by rw [enenc_eq_enablePacked]) fun _ => trivial
  · exact writes_of_exec_writeByte (reg := .config) rfl (cfgenc_setWidth fv) fun _ => trivial

/-- Settles O37: both drive the time T2MS gives, RDATIME always for the short step. -/
theorem timeReadsDriveEncodedTime : Obligations.TimeReadsDriveEncodedTime := by
  refine ⟨fun r hop => by simp [decode, hop], fun r hop => by simp [decode, hop], ?_, fun lng => ?_⟩
  · refine readsByte_of_exec .atime (fun _ => rfl) fun v _ => ?_
    have hshort : ((t2ms v false).toNat : Int) = (256 - (v.toNat : Int)) * 273 := t2ms_toNat v false
    have hv := v.isLt
    change (t2ms v false).toNat = _
    omega
  · exact readsByte_of_exec .wtime (fun _ => rfl) fun v _ => t2ms_toNat v lng

/-- Settles O38: both are writes of a time, WRATIME always with the short step. -/
theorem timeWritesQuantizeOrReject : Obligations.TimeWritesQuantizeOrReject :=
  ⟨fun r hop => by simp [decode, hop, readSigned], fun r hop => by simp [decode, hop, readSigned],
   fun _ _ => writesTime_of_exec .atime rfl, fun _ _ _ => writesTime_of_exec .wtime rfl⟩

/-- Settles O39: each is the word read of its register. -/
theorem wordReadsPassValueThrough : Obligations.WordReadsPassValueThrough :=
  ⟨fun r hop => by simp [decode, hop], fun r hop => by simp [decode, hop], fun r hop => by simp [decode, hop],
   fun r hop => by simp [decode, hop], readsWord_of_exec .ailt (fun _ => rfl) fun _ => rfl,
   readsWord_of_exec .aiht (fun _ => rfl) fun _ => rfl, readsWord_of_exec .c0data (fun _ => rfl) fun _ => rfl,
   readsWord_of_exec .c1data (fun _ => rfl) fun _ => rfl⟩

/-- Settles O40: each is the word write of its register. -/
theorem wordWritesPassValueThrough : Obligations.WordWritesPassValueThrough :=
  ⟨fun r hop => by simp [decode, hop], fun r hop => by simp [decode, hop],
   fun _ _ => writes_of_exec_writeWord .ailt rfl rfl, fun _ _ => writes_of_exec_writeWord .aiht rfl rfl⟩

/-- Settles O41: both drive the entry that PERSDEC and GAINDEC look up, whose index is the low bits of the
byte read. -/
theorem enumReadsLookUpTable : Obligations.EnumReadsLookUpTable := by
  refine ⟨fun r hop => by simp [decode, hop], fun r hop => by simp [decode, hop], ?_, ?_⟩
  · rintro rom s rfl
    refine exec_readByte_ends (reg := .pers) rfl fun _ => ?_
    have hlow : ((nextResponse s).tRdata.extractLsb' 0 8).toNat % 16 = (nextResponse s).tRdata.toNat % 16 := by
      rw [BitVec.extractLsb'_toNat, Nat.shiftRight_zero, Nat.mod_mod_of_dvd _ (by decide)]
    rw [← hlow]
    exact persCounts_getElem?_persdec s.rom _
  · exact readsByte_of_exec .control (fun _ => rfl) fun v _ => gainTable_getElem?_gaindec v

/-- Settles O42: the index written is one of the table's, for WRGAIN the only one of the value. -/
theorem enumWritesWriteIndexOrReject : Obligations.EnumWritesWriteIndexOrReject := by
  refine ⟨fun r hop => by simp [decode, hop, readSigned], fun r hop => by simp [decode, hop, readSigned],
    fun v s => ?_, fun v s => ?_⟩
  · have hexec : exec (.wrpers v) s = .next (writeField .pers (tableEncode (persCounts s.rom) v) s) := rfl
    rw [isPersCount_iff_mem_tableValues]
    refine ⟨writeField_rejects_of_not_mem hexec, fun hv => ?_⟩
    obtain ⟨n, hvalue, hwrites⟩ := writes_index_of_mem hexec (by rw [persCounts_length]; decide) hv
    have hlt := lt_length_of_tableValues_getElem? hvalue
    rw [persCounts_length] at hlt
    rw [tableValues, List.getElem?_map] at hvalue
    exact ⟨n, hlt, hvalue, hwrites⟩
  · have hexec : exec (.wrgain v) s = .next (writeField .control (tableEncode gainTable v) s) := rfl
    rw [← tableValues_gainTable]
    refine ⟨writeField_rejects_of_not_mem hexec, fun i hi => ?_⟩
    obtain ⟨n, hvalue, hwrites⟩ := writes_index_of_mem hexec (by decide) (List.mem_of_getElem? hi)
    rwa [tableIndex_unique gainTable_increasing hvalue hi] at hwrites

/-- Settles O46: the one transaction a step may ask for. -/
theorem atMostOneTransactionPerStep : Obligations.AtMostOneTransactionPerStep := by
  intro s t h
  obtain ⟨-, hnone | ⟨x, -, hone⟩⟩ := step_keeps_rom_and_asks_legally h
  · exact .inl hnone
  · exact .inr ⟨x, hone⟩

/-- Settles O56: the transaction on the ports is legal, so of one of the two kinds that the premises exclude. -/
theorem specialKindIsNeverUsed : Obligations.SpecialKindIsNeverUsed := by
  intro s t hrepeated hautoinc h hvalid hspecial
  obtain ⟨-, ⟨hinvalid, -⟩ | ⟨x, hx, -, -, -, hcmd, -⟩⟩ := step_keeps_rom_and_asks_legally h
  · rw [hinvalid] at hvalid
    cases hvalid
  · rw [hcmd] at hspecial
    obtain hkind | hkind := hx.kind
    · exact hautoinc (hspecial.symm.trans hkind)
    · exact hrepeated (hspecial.symm.trans hkind)

/-- Settles O43: the byte read is the result. -/
theorem rdidDrivesRawByte : Obligations.RdidDrivesRawByte :=
  ⟨fun r hop => by simp [decode, hop], readsByte_of_exec .id (fun _ => rfl) fun _ _ => rfl⟩

/-- Settles O44: each is rejected before any transaction. -/
theorem readOnlyWritesAreViolations : Obligations.ReadOnlyWritesAreViolations := by
  refine ⟨fun r hop => by simp [decode, hop], fun r hop => by simp [decode, hop], fun r hop => by simp [decode, hop],
    fun r hop => by simp [decode, hop], fun s => ?_⟩
  have hrejects : Rejects 3 s (reject .readOnlyViolation s) := reject_rejects .readOnlyViolation s
  exact ⟨⟨_, rfl, hrejects⟩, ⟨_, rfl, hrejects⟩, ⟨_, rfl, hrejects⟩, ⟨_, rfl, hrejects⟩⟩

end Sys2Proof.Machine

/-! ## Errors and how a request ends (60_exceptions.md) -/

namespace Sys2Proof.Machine

/-! ### The checks exclude one another (R227) -/

section
variable {rom : Rom} {r : Request} {tOk : Bool} {code : BitVec 3}

theorem endsWith_of_reserved (h : r.op ∈ reservedOps) : EndsWith rom r tOk 5 := by
  rw [EndsWith, if_pos h]

theorem endsWith_of_readOnly (h : r.op ∈ [(0x31 : BitVec 6), 0x33, 0x35, 0x37]) : EndsWith rom r tOk 3 := by
  have hcodes : ∀ op ∈ [(0x31 : BitVec 6), 0x33, 0x35, 0x37], op ∉ reservedOps := by decide
  rw [EndsWith, if_neg (hcodes r.op h), if_pos h]

/-- Only MS2T, WRATIME and WRWTIME check a time (R222). -/
theorem TimeInvalid.op_mem (h : TimeInvalid r) : r.op ∈ [(0x09 : BitVec 6), 0x23, 0x25] := by
  obtain ⟨hop, -⟩ | ⟨hop, -⟩ := h
  · exact List.Sublist.subset (by decide) hop
  · simp [hop]

/-- Only PERSENC, WRPERS, GAINENC and WRGAIN check a value (R223). -/
theorem ValueInvalid.op_mem (h : ValueInvalid rom r) : r.op ∈ [(0x0D : BitVec 6), 0x2B, 0x0F, 0x2F] :=
  List.mem_append.2 (h.imp And.left And.left)

theorem endsWith_of_timeInvalid (h : TimeInvalid r) : EndsWith rom r tOk 1 := by
  have hcodes : ∀ op ∈ [(0x09 : BitVec 6), 0x23, 0x25], op ∉ reservedOps ∧
      op ∉ [(0x31 : BitVec 6), 0x33, 0x35, 0x37] ∧ op ∉ [(0x0D : BitVec 6), 0x2B, 0x0F, 0x2F] := by
    decide
  obtain ⟨hres, hro, hvalue⟩ := hcodes r.op h.op_mem
  rw [EndsWith, if_neg hres, if_neg hro]
  exact ⟨fun _ => rfl, fun hv => absurd hv.op_mem hvalue, fun ht => absurd h ht⟩

theorem endsWith_of_valueInvalid (h : ValueInvalid rom r) : EndsWith rom r tOk 2 := by
  have hcodes : ∀ op ∈ [(0x0D : BitVec 6), 0x2B, 0x0F, 0x2F], op ∉ reservedOps ∧
      op ∉ [(0x31 : BitVec 6), 0x33, 0x35, 0x37] ∧ op ∉ [(0x09 : BitVec 6), 0x23, 0x25] := by
    decide
  obtain ⟨hres, hro, htime⟩ := hcodes r.op h.op_mem
  rw [EndsWith, if_neg hres, if_neg hro]
  exact ⟨fun ht => absurd ht.op_mem htime, fun _ => rfl, fun _ hv => absurd h hv⟩

/-- A request that asks has passed every check: the transport's answer is left to decide. -/
theorem endsWith_of_asks (h : Asks rom r) : EndsWith rom r tOk (if tOk then 0 else 4) := by
  obtain ⟨hfront, hres, hro, ht, hv⟩ := h
  rw [EndsWith, if_neg hres, if_neg hro]
  exact ⟨fun h => absurd h ht, fun h => absurd h hv, fun _ _ => by cases tOk <;> rw [hfront] <;> rfl⟩

/-- A primitive that passes its checks succeeds, whatever the transport would answer. -/
theorem endsWith_of_primitive (hop : r.op.getLsbD 5 = false) (hres : r.op ∉ reservedOps) (ht : ¬ TimeInvalid r)
    (hv : ¬ ValueInvalid rom r) : EndsWith rom r tOk 0 := by
  have hcodes : ∀ op : BitVec 6, op.getLsbD 5 = false → op ∉ [(0x31 : BitVec 6), 0x33, 0x35, 0x37] := by decide
  rw [EndsWith, if_neg hres, if_neg (hcodes r.op hop)]
  exact ⟨fun h => absurd h ht, fun h => absurd h hv, fun _ _ => by rw [hop]; rfl⟩

/-- The checks decide one code. -/
theorem EndsWith.unique {code' : BitVec 3} (h : EndsWith rom r tOk code) (h' : EndsWith rom r tOk code') :
    code = code' := by
  rw [EndsWith] at h h'
  by_cases hres : r.op ∈ reservedOps
  · rw [if_pos hres] at h h'
    rw [h, h']
  rw [if_neg hres] at h h'
  by_cases hro : r.op ∈ [(0x31 : BitVec 6), 0x33, 0x35, 0x37]
  · rw [if_pos hro] at h h'
    rw [h, h']
  rw [if_neg hro] at h h'
  obtain ⟨htime, hvalue, hpasses⟩ := h
  obtain ⟨htime', hvalue', hpasses'⟩ := h'
  by_cases ht : TimeInvalid r
  · rw [htime ht, htime' ht]
  by_cases hv : ValueInvalid rom r
  · rw [hvalue hv, hvalue' hv]
  · rw [hpasses ht hv, hpasses' ht hv]

/-- A request that ends in TransportError, and a front-end request that succeeds, has passed every check. -/
theorem EndsWith.asks (h : EndsWith rom r tOk code) (hcode : code = 4 ∨ code = 0 ∧ r.op.getLsbD 5 = true) :
    Asks rom r := by
  have hother : code ∉ [(1 : BitVec 3), 2, 3, 5] := by obtain rfl | ⟨rfl, -⟩ := hcode <;> decide
  have hres : r.op ∉ reservedOps := fun hop => hother (by simp [h.unique (endsWith_of_reserved hop)])
  have ht : ¬ TimeInvalid r := fun ht => hother (by simp [h.unique (endsWith_of_timeInvalid ht)])
  have hv : ¬ ValueInvalid rom r := fun hv => hother (by simp [h.unique (endsWith_of_valueInvalid hv)])
  refine ⟨?_, hres, fun hop => hother (by simp [h.unique (endsWith_of_readOnly hop)]), ht, hv⟩
  obtain hfailed | ⟨-, hfront⟩ := hcode
  · by_contra hop
    have hsucceeds := h.unique (endsWith_of_primitive (Bool.eq_false_of_not_eq_true hop) hres ht hv)
    exact absurd (hfailed.symm.trans hsucceeds) (by decide)
  · exact hfront

end

/-! ### Every operation ends as its checks decide (R221 to R227) -/

/-- The primitives that compute for every operand. -/
def computingOps : List (BitVec 6) := [0x00, 0x01, 0x02, 0x03, 0x04, 0x05, 0x08, 0x0C, 0x0E]

/-- From `s` the instruction answers, with the error that the checks of the request decide. -/
def Concludes (r : Request) (i : Instr) (s : State) : Prop :=
  ∃ t, exec i s = .next t ∧ EndsWith s.rom r (nextResponse s).tOk t.err

section
variable {r : Request} {i : Instr} {s : State}

theorem concludes_of_rejects {code : BitVec 3} (h : EndsWith s.rom r (nextResponse s).tOk code)
    (hexec : ∃ t, exec i s = .next t ∧ Rejects code s t) : Concludes r i s := by
  obtain ⟨t, hexec, herr, -⟩ := hexec
  exact ⟨t, hexec, herr ▸ h⟩

theorem concludes_of_computes {ports : List ResultPort} {Holds : State → Prop}
    (h : EndsWith s.rom r (nextResponse s).tOk 0)
    (hexec : ∃ t, exec i s = .next t ∧ Computes ports s t ∧ Holds t) : Concludes r i s := by
  obtain ⟨t, hexec, ⟨herr, -⟩, -⟩ := hexec
  exact ⟨t, hexec, herr ▸ h⟩

theorem concludes_of_asks (h : Asks s.rom r)
    (hexec : ∃ t, exec i s = .next t ∧ t.err = if (nextResponse s).tOk then 0 else 4) : Concludes r i s := by
  obtain ⟨t, hexec, herr⟩ := hexec
  exact ⟨t, hexec, herr ▸ endsWith_of_asks h⟩

theorem transact_err (x : Txn) (results : Word16 → Results) (s : State) :
    (transact x results s).err = if (nextResponse s).tOk then 0 else 4 := by
  cases hok : (nextResponse s).tOk
  · rw [transact_of_failed x results hok]
    rfl
  · rw [transact_of_ok x results hok]
    rfl

theorem err_of_writes {x : Rom → Txn} {ports : List ResultPort} {Holds : State → Prop}
    (h : Writes i x ports Holds s) : ∃ t, exec i s = .next t ∧ t.err = if (nextResponse s).tOk then 0 else 4 := by
  obtain ⟨hsucceeds, hfails⟩ := h
  cases hok : (nextResponse s).tOk
  · obtain ⟨t, hexec, herr, -⟩ := hfails hok
    exact ⟨t, hexec, herr⟩
  · obtain ⟨t, hexec, ⟨herr, -⟩, -⟩ := hsucceeds hok
    exact ⟨t, hexec, herr⟩

/-- A front-end operation without validation is one transaction. -/
theorem exec_of_mem_uncheckedOps (hr : decode r = .ok i) (h : r.op ∈ uncheckedOps) (s : State) :
    ∃ x results, exec i s = .next (transact x results s) := by
  unfold decode at hr
  simp only [uncheckedOps, List.mem_cons, List.not_mem_nil, or_false] at h
  obtain h | h | h | h | h | h | h | h | h | h | h | h | h | h | h | h := h
  all_goals
    rw [h] at hr
    cases hr
    exact ⟨_, _, rfl⟩

theorem exec_of_mem_computingOps (hr : decode r = .ok i) (h : r.op ∈ computingOps) (s : State) :
    ∃ results, exec i s = .next (compute results s) := by
  unfold decode at hr
  simp only [computingOps, List.mem_cons, List.not_mem_nil, or_false] at h
  obtain h | h | h | h | h | h | h | h | h := h
  all_goals
    rw [h] at hr
    cases hr
    exact ⟨_, rfl⟩

theorem concludes_of_mem_uncheckedOps (hr : decode r = .ok i) (h : r.op ∈ uncheckedOps) (s : State) :
    Concludes r i s := by
  obtain ⟨x, results, hexec⟩ := exec_of_mem_uncheckedOps hr h s
  exact concludes_of_asks (asks_of_mem_uncheckedOps h) ⟨_, hexec, transact_err x results s⟩

theorem concludes_of_mem_computingOps (hr : decode r = .ok i) (h : r.op ∈ computingOps) (s : State) :
    Concludes r i s := by
  have hcodes : ∀ op ∈ computingOps, op.getLsbD 5 = false ∧ op ∉ [(0x09 : BitVec 6), 0x23, 0x25] ∧
      op ∉ [(0x0D : BitVec 6), 0x2B, 0x0F, 0x2F] := by
    decide
  obtain ⟨hprimitive, htime, hvalue⟩ := hcodes r.op h
  obtain ⟨results, hexec⟩ := exec_of_mem_computingOps hr h s
  exact ⟨_, hexec, endsWith_of_primitive hprimitive (not_mem_reservedOps_of_decode_ok hr)
    (fun ht => htime ht.op_mem) fun hv => hvalue hv.op_mem⟩

theorem concludes_of_readOnly (hr : decode r = .ok i) (h : r.op ∈ [(0x31 : BitVec 6), 0x33, 0x35, 0x37]) (s : State) :
    Concludes r i s := by
  refine concludes_of_rejects (endsWith_of_readOnly h) ?_
  obtain ⟨hwrid, hwrstatus, hwrc0, hwrc1, hrejects⟩ := readOnlyWritesAreViolations
  obtain ⟨hid, hstatus, hc0, hc1⟩ := hrejects s
  simp only [List.mem_cons, List.not_mem_nil, or_false] at h
  obtain hop | hop | hop | hop := h
  · cases hr.symm.trans (hwrid r hop)
    exact hid
  · cases hr.symm.trans (hwrstatus r hop)
    exact hstatus
  · cases hr.symm.trans (hwrc0 r hop)
    exact hc0
  · cases hr.symm.trans (hwrc1 r hop)
    exact hc1

/-! ### The operations that check a time (R222) -/

theorem concludes_ms2t (hr : decode r = .ok i) (hop : r.op = 0x09) (s : State) : Concludes r i s := by
  have hres := not_mem_reservedOps_of_decode_ok hr
  obtain ⟨hdecode, -⟩ := ms2tQuantizesOrRejects
  cases hr.symm.trans (hdecode r hop)
  by_cases h : TimeInRange r.ms.toInt r.lng
  · have hpasses : EndsWith s.rom r (nextResponse s).tOk 0 :=
      endsWith_of_primitive (hop ▸ rfl) hres (by simp [TimeInvalid, hop, h]) (by simp [ValueInvalid, hop])
    exact concludes_of_computes hpasses (exec_ms2t_of_inRange h s)
  · exact concludes_of_rejects (endsWith_of_timeInvalid (.inl ⟨by simp [hop], h⟩)) (exec_ms2t_of_not_inRange h s)

theorem concludes_of_writesTime {cmd : Byte} {ms : Int} {lng : Bool} (hwrites : WritesTime i cmd ms lng s)
    (hasks : Asks s.rom r ↔ TimeInRange ms lng) (hcheck : ¬ TimeInRange ms lng → TimeInvalid r) :
    Concludes r i s := by
  obtain ⟨hout, hin⟩ := hwrites
  by_cases h : TimeInRange ms lng
  · exact concludes_of_asks (hasks.2 h) (err_of_writes (hin h))
  · exact concludes_of_rejects (endsWith_of_timeInvalid (hcheck h)) (hout h)

theorem concludes_wratime (hr : decode r = .ok i) (hop : r.op = 0x23) (s : State) : Concludes r i s := by
  obtain ⟨hdecode, -, hwrites, -⟩ := timeWritesQuantizeOrReject
  cases hr.symm.trans (hdecode r hop)
  exact concludes_of_writesTime (hwrites _ s) (asks_wratime_iff hop) fun h => .inr ⟨hop, h⟩

theorem concludes_wrwtime (hr : decode r = .ok i) (hop : r.op = 0x25) (s : State) : Concludes r i s := by
  obtain ⟨-, hdecode, -, hwrites⟩ := timeWritesQuantizeOrReject
  cases hr.symm.trans (hdecode r hop)
  exact concludes_of_writesTime (hwrites _ _ s) (asks_wrwtime_iff hop) fun h => .inl ⟨by simp [hop], h⟩

/-! ### The operations that check a value (R223) -/

theorem concludes_persenc (hr : decode r = .ok i) (hop : r.op = 0x0D) (s : State) : Concludes r i s := by
  have hres := not_mem_reservedOps_of_decode_ok hr
  obtain ⟨hdecode, -⟩ := persencFindsIndexOrRejects
  cases hr.symm.trans (hdecode r hop)
  by_cases h : IsPersCount s.rom r.val.toInt
  · have hpasses : EndsWith s.rom r (nextResponse s).tOk 0 :=
      endsWith_of_primitive (hop ▸ rfl) hres (by simp [TimeInvalid, hop]) (by simp [ValueInvalid, hop, h])
    exact concludes_of_computes hpasses (exec_persenc_of_isPersCount h)
  · exact concludes_of_rejects (endsWith_of_valueInvalid (.inl ⟨by simp [hop], h⟩)) (exec_persenc_of_not_isPersCount h)

theorem concludes_gainenc (hr : decode r = .ok i) (hop : r.op = 0x0F) (s : State) : Concludes r i s := by
  have hres := not_mem_reservedOps_of_decode_ok hr
  obtain ⟨hdecode, -⟩ := gainencFindsIndexOrRejects
  cases hr.symm.trans (hdecode r hop)
  by_cases h : r.val.toInt ∈ tableValues gainTable
  · have hpasses : EndsWith s.rom r (nextResponse s).tOk 0 :=
      endsWith_of_primitive (hop ▸ rfl) hres (by simp [TimeInvalid, hop])
        (by rw [ValueInvalid, ← tableValues_gainTable]; simp [hop, h])
    exact concludes_of_computes hpasses (exec_gainenc_of_mem h s)
  · exact concludes_of_rejects (endsWith_of_valueInvalid (.inr ⟨by simp [hop], h⟩)) (exec_gainenc_of_not_mem h s)

theorem concludes_wrpers (hr : decode r = .ok i) (hop : r.op = 0x2B) (s : State) : Concludes r i s := by
  obtain ⟨hdecode, -, hpers, -⟩ := enumWritesWriteIndexOrReject
  cases hr.symm.trans (hdecode r hop)
  obtain ⟨hrejects, hwrites⟩ := hpers r.val.toInt s
  by_cases h : IsPersCount s.rom r.val.toInt
  · obtain ⟨n, -, -, hwrites⟩ := hwrites h
    exact concludes_of_asks ((asks_wrpers_iff hop).2 h) (err_of_writes hwrites)
  · exact concludes_of_rejects (endsWith_of_valueInvalid (.inl ⟨by simp [hop], h⟩)) (hrejects h)

theorem concludes_wrgain (hr : decode r = .ok i) (hop : r.op = 0x2F) (s : State) : Concludes r i s := by
  obtain ⟨-, hdecode, -, hgain⟩ := enumWritesWriteIndexOrReject
  cases hr.symm.trans (hdecode r hop)
  obtain ⟨hrejects, hwrites⟩ := hgain r.val.toInt s
  by_cases h : r.val.toInt ∈ [(1 : Int), 8, 16, 120]
  · obtain ⟨n, hn⟩ := List.mem_iff_getElem?.1 h
    exact concludes_of_asks ((asks_wrgain_iff hop).2 (List.mem_map.1 h)) (err_of_writes (hwrites n hn))
  · exact concludes_of_rejects (endsWith_of_valueInvalid (.inr ⟨by simp [hop], h⟩)) (hrejects h)

end

/-- Every instruction ends as the checks of its request decide: one case per kind of check. -/
theorem exec_concludes {r : Request} {i : Instr} (hr : decode r = .ok i) (s : State) : Concludes r i s := by
  have hcodes : ∀ op : BitVec 6, op ∈ reservedOps ∨ op ∈ uncheckedOps ∨ op ∈ computingOps ∨
      op ∈ [(0x31 : BitVec 6), 0x33, 0x35, 0x37] ∨ op = 0x09 ∨ op = 0x23 ∨ op = 0x25 ∨
      op = 0x0D ∨ op = 0x0F ∨ op = 0x2B ∨ op = 0x2F := by
    decide
  obtain hop | hop | hop | hop | hop | hop | hop | hop | hop | hop | hop := hcodes r.op
  · exact absurd hop (not_mem_reservedOps_of_decode_ok hr)
  · exact concludes_of_mem_uncheckedOps hr hop s
  · exact concludes_of_mem_computingOps hr hop s
  · exact concludes_of_readOnly hr hop s
  · exact concludes_ms2t hr hop s
  · exact concludes_wratime hr hop s
  · exact concludes_wrwtime hr hop s
  · exact concludes_persenc hr hop s
  · exact concludes_gainenc hr hop s
  · exact concludes_wrpers hr hop s
  · exact concludes_wrgain hr hop s

/-! ### The statements -/

/-- Settles O50: a reserved code is rejected first, and every other code concludes as its checks decide. -/
theorem firstFailingCheckDecidesErr : Obligations.FirstFailingCheckDecidesErr := by
  intro s r rest hs
  cases hr : decode r with
  | ok i =>
    rw [step_eq_exec_of_decode hs hr]
    exact exec_concludes hr { s with host := rest }
  | error e =>
    have hop := mem_reservedOps_of_decode_error hr
    exact ⟨_, step_eq_reject_of_decode_error hs hr, endsWith_of_reserved hop⟩

/-- Settles O49: the errors of the checks are those of the requests that do not ask (`EndsWith.asks`), and
every step serves its request (`step_serviced`). -/
theorem descriptorMatchesError : Obligations.DescriptorMatchesError := by
  intro s r rest hs
  obtain ⟨t, hstep, hends⟩ := firstFailingCheckDecidesErr s r rest hs
  obtain ⟨t', hstep', -, hone, hnone⟩ := step_serviced hs
  cases hstep.symm.trans hstep'
  refine ⟨t, hstep, fun herr => hnone fun ha => ?_, fun herr => ?_, fun herr hfront => ?_⟩
  · have hanswered := hends.unique (endsWith_of_asks ha)
    rw [hanswered] at herr
    cases hok : (nextResponse s).tOk <;> simp [hok] at herr
  · obtain ⟨x, -, hx⟩ := hone (hends.asks (.inl herr))
    exact ⟨x, hx⟩
  · obtain ⟨x, -, hx⟩ := hone (hends.asks (.inr ⟨herr, hfront⟩))
    exact ⟨x, hx⟩

/-- Settles O8: the step on a move that overlaps is the refusal (R240). -/
theorem overlappingRequestsAreRefused : Obligations.OverlappingRequestsAreRefused := by
  intro s r r' rest hs
  simp [step, nextMove_cons hs]

/-- Settles O11: every instruction follows a plan, and a plan keeps the ROM and the later moves. -/
theorem everyOperationCompletes : Obligations.EveryOperationCompletes := by
  intro i s
  obtain ⟨p, -, hexec⟩ := exec_planned s.rom i
  exact ⟨p.run s, hexec s rfl, p.run_kept s⟩

/-- Settles O34: with an answer left, no free draw is taken. -/
theorem transportAnswersInOrder : Obligations.TransportAnswersInOrder := by
  intro s a as h
  simp [nextResponse, h]

end Sys2Proof.Machine

/-! ## Reset and steps without a request (70_reset_and_hazards.md) -/

namespace Sys2Proof.Machine

/-! ### Steps that present no request -/

/-- The step of an asserted reset takes that move and withdraws the outputs (R250). -/
theorem step_of_reset {s : State} {rest : List HostMove} (hs : s.host = .reset :: rest) :
    step s = .next (withdraw { s with host := rest }) := by
  simp [step, nextMove_cons hs]

/-- `withdraw` asks the transport for nothing. -/
theorem withdraw_noTransaction (s : State) : NoTransaction s (withdraw s) :=
  ⟨withdraw_txValid s, withdraw_issued s, withdraw_responses s⟩

/-- `withdraw` keeps the ROM and the host's later moves. -/
theorem withdraw_kept (s : State) : Kept s (withdraw s) := ⟨withdraw_rom s, withdraw_host s⟩

/-- Settles O9: both steps answer the state withdrawn, the reset's without the move it took. -/
theorem idleAndResetDriveNothing : Obligations.IdleAndResetDriveNothing :=
  ⟨fun s hs =>
    ⟨_, step_of_no_move hs, withdraw_nothingDriven s, withdraw_noTransaction s, withdraw_kept s⟩,
   fun s rest hs =>
    ⟨_, step_of_reset hs, withdraw_nothingDriven { s with host := rest },
      withdraw_noTransaction { s with host := rest }, withdraw_kept { s with host := rest }⟩⟩

/-! ### The state at reset -/

theorem reset_nothingDriven : NothingDriven 0 State.reset :=
  ⟨rfl, rfl, rfl, rfl, rfl, rfl, rfl, rfl, rfl, rfl, rfl, rfl⟩

/-- The persistence table of R150, with the defaults of R7 at its open entries. -/
theorem persCounts_defaults :
    persCounts Rom.defaults = [0, 1, 2, 3, 5, 10, 15, 20, 25, 30, 35, 40, 45, 50, 55, 60] := by
  decide

/-- The default table is strictly increasing (R156). -/
theorem romIncreasing_defaults : RomIncreasing Rom.defaults := by
  rw [RomIncreasing, persCounts_defaults]
  decide

/-- Settles O10: the ROM at reset holds the defaults. -/
theorem resetHoldsTheConstants : Obligations.ResetHoldsTheConstants :=
  ⟨reset_nothingDriven, rfl, rfl, rfl, persCounts_defaults, romIncreasing_defaults⟩

/-- With an empty record and no transaction requested the bus is safe. -/
theorem BusSafe.of_nothing_issued {s : State} (hissued : s.issued = []) (hvalid : s.txValid = false) :
    BusSafe s :=
  ⟨by simp [hissued], by simp [hvalid]⟩

/-- Settles O55: the record is empty at reset and `tx_valid` is 0 (R250). -/
theorem resetIsBusSafe : Obligations.ResetIsBusSafe := BusSafe.of_nothing_issued rfl rfl

end Sys2Proof.Machine
